-- ==== Sys2Proof/Word.lean ====
section
/-! DEFINITION. The word types of the part: a byte of the store and a 32-bit bus word (00_scope.md, sections 3 and 5). -/

namespace Sys2Proof

/-- One byte of the store, of a cell or of a record. -/
abbrev Byte := BitVec 8

/-- One 4-byte word of the burst store bus. -/
abbrev Word := BitVec 32

end Sys2Proof
end

