-- ==== Sys2Proof/Items.lean ====
section
/-! DEFINITION. The items that the retained store holds (R157): titles, lock, stay, tariff and charge records as plain data, and
the contents of the retained store as one value, with the room it has for them. -/

namespace Sys2Proof.Machine

/-! ## Titles (chapter 5) -/

/-- State of a title entry (R64). Purchase second and purchase sequence are present only in PURCHASED and LAPSED. -/
inductive TitleState where
  | offered
  | preview
  | exhausted
  | purchased (second sequence : Nat)
  | lapsed (second sequence : Nat)
  deriving DecidableEq, Repr, Inhabited

/-- One entry of the title table (R64). -/
structure TitleEntry where
  number : BitVec 16
  rating : Nat
  price : Nat
  limit : Nat
  hours : Nat
  state : TitleState
  used : Nat
  seenMain : Bool
  seenMosaic : Bool
  deriving DecidableEq, Repr, Inhabited

/-! ## Lock, stay and tariff (chapters 6 and 9) -/

/-- The lock unit's four items (section 6.2). A PIN is the list of its digits. -/
structure Lock where
  pin : Option (List Byte)
  tries : Nat
  lockout : Nat
  lift : Nat
  deriving DecidableEq, Repr, Inhabited

/-- The stay states (section 9.3). -/
inductive StayState where
  | vacant
  | occupied
  | closing
  deriving DecidableEq, Repr, Inhabited

/-- The stay controller's own items of the stay record (R129). -/
structure Stay where
  state : StayState
  number : Word
  seconds : Nat
  ceiling : Nat
  credit : Nat
  discount : Nat
  deriving DecidableEq, Repr, Inhabited

/-- The tariff (R130). -/
structure Tariff where
  taxRate : Nat
  siteClamp : Nat
  houseCeiling : Nat
  discreetClass : Nat
  liftMinutes : Nat
  deriving DecidableEq, Repr, Inhabited

/-! ## Charge records (chapter 8) -/

/-- What a charge record carries by its kind (R114, R121). -/
inductive ChargeBody where
  | purchase (discreet : Bool) (title : BitVec 16) (service : Byte) (net tax : Nat)
  | close (count netTotal taxTotal : Nat)
  deriving DecidableEq, Repr, Inhabited

/-- A charge record (R114, R121). -/
structure ChargeRecord where
  sequence : Nat
  stayNumber : Word
  second : Nat
  spent : Nat
  body : ChargeBody
  deriving DecidableEq, Repr, Inhabited

/-! ## The retained store (chapter 11) -/

/-- The contents of the retained store (R157): of the title table the entries that are not OFFERED, in their recency order, and
of the charge list the records, oldest first. -/
structure Retained where
  siteKey : BitVec 64
  tariff : Tariff
  stay : Stay
  lock : Lock
  titles : List TitleEntry
  records : List ChargeRecord
  lastIssued : Nat
  acknowledged : Nat
  netTotal : Nat
  taxTotal : Nat
  count : Nat
  deriving DecidableEq, Repr, Inhabited

/-- The numbers of a title state lie in their fields (R64). -/
def TitleState.inWidth : TitleState → Bool
  | .purchased second sequence => decide (second < 2 ^ 32) && decide (sequence < 2 ^ 32)
  | .lapsed second sequence => decide (second < 2 ^ 32) && decide (sequence < 2 ^ 32)
  | .offered => false
  | .preview => true
  | .exhausted => true

/-- A title entry can stand in the retained store: it is not OFFERED, it has no seen flag there, and its numbers lie in their
fields (R64, R81). -/
def TitleEntry.inWidth (e : TitleEntry) : Bool :=
  e.state.inWidth && !e.seenMain && !e.seenMosaic && decide (e.rating < 256) && decide (e.price < 65536) &&
    decide (e.limit < 65536) && decide (e.hours < 256) && decide (e.used < 65536)

/-- The numbers of a charge record lie in their fields (section 12.6). -/
def ChargeRecord.inWidth (c : ChargeRecord) : Bool :=
  decide (c.sequence < 2 ^ 32) && decide (c.second < 2 ^ 32) && decide (c.spent < 2 ^ 32) &&
    match c.body with
    | .purchase _ _ _ net tax => decide (net < 2 ^ 32) && decide (tax < 2 ^ 32)
    | .close count netTotal taxTotal => decide (count < 2 ^ 32) && decide (netTotal < 2 ^ 32) && decide (taxTotal < 2 ^ 32)

/-- A PIN has places for its digits (R85). -/
def pinInWidth : Option (List Byte) → Bool
  | none => true
  | some ds => decide (1 ≤ ds.length) && decide (ds.length ≤ 8)

/-- Contents that the retained store has the places and the fields to hold (R119, R129, R130, R157, section 6.2). The widths of the
fields are the model's own choice, as R157 names none (DESIGN CHOICE, log entry 10). -/
def Retained.inWidth (r : Retained) : Bool :=
  decide (r.tariff.taxRate < 65536) && decide (r.tariff.siteClamp < 256) && decide (r.tariff.houseCeiling < 256) &&
    decide (r.tariff.discreetClass < 256) && decide (r.tariff.liftMinutes < 65536) &&
    decide (r.stay.seconds < 2 ^ 32) && decide (r.stay.ceiling < 256) && decide (r.stay.credit < 2 ^ 32) &&
    decide (r.stay.discount < 256) && pinInWidth r.lock.pin && decide (r.lock.tries < 256) &&
    decide (r.lock.lockout < 65536) && decide (r.lock.lift < 65536) &&
    decide (r.titles.length ≤ 32) && r.titles.all TitleEntry.inWidth &&
    decide (r.records.length ≤ 16) && r.records.all ChargeRecord.inWidth &&
    decide (r.lastIssued < 2 ^ 32) && decide (r.acknowledged < 2 ^ 32) && decide (r.netTotal < 2 ^ 32) &&
    decide (r.taxTotal < 2 ^ 32) && decide (r.count < 2 ^ 32)

end Sys2Proof.Machine
end

