-- ==== Sys2Proof/Config.lean ====
section
/-! DEFINITION. What is fixed for the part, and the values the manual leaves open (opaque constants: no proof can see them). -/

namespace Sys2Proof

/-- The size of the store's address range in bytes: addresses are below 2^26 (00_scope.md, section 3). -/
def Config.storeSize : Nat := 67108864

/-- What a byte of the store reads as when nothing has written it. DESIGN CHOICE, unsafe: the manual gives the store
devices no content at power-on (log entry 2). -/
def Config.blankByte : Byte := 0

/-- The orders in which the three owners of a seconds tick can finish the work that has a step of its own:
the viewing meter, the lift and the lockout (R138: they have no order among themselves). -/
inductive TickOrder where
  | meterLiftLockout
  | meterLockoutLift
  | liftMeterLockout
  | liftLockoutMeter
  | lockoutMeterLift
  | lockoutLiftMeter
  deriving DecidableEq, Repr, Inhabited

/-- The order of the owners' outstanding work at a tick whose order the command queue does not say (R97, R138): a free
value, drawn with the State's own counter (log entry 6). -/
opaque Config.tickOrder : Nat → TickOrder

/-- Whether the viewing meter hands the reports of a tick's beginning before the lock unit hands its own (R145: either may hand
first): a free value, drawn with the State's own counter (log entry 6). -/
opaque Config.meterFirst : Nat → Bool

/-- What a decay leaves in the retained store (R157 says that the store loses its contents without backup, and not what it then
holds): a free value, drawn with the State's own counter (log entry 11). -/
opaque Config.decayedStore : Nat → Machine.Retained

/-- The generator polynomial of the retained store's check word, less its x^32 term; its x^0 term is set where it is
used. R157 gives the check as a 32-bit cyclic one and names no polynomial: a free value (log entry 10). -/
opaque Config.checkPolynomial : Word

/-- The preset of the check word's register: a free value (R157 names none; log entry 10). -/
opaque Config.checkPreset : Word

end Sys2Proof
end

