-- ==== Sys2Proof/Syntax.lean ====
section
/-! DEFINITION. The commands and events of the part: one constructor of Instr for each row of spec/opcode_table.json. -/

namespace Sys2Proof

/-- Direction of a burst store bus transaction (00_scope.md, section 3). -/
inductive Direction where
  | read
  | write
  deriving DecidableEq, Repr

/-- One word of a write burst with its byte mask. Byte 0, at the lowest address, is the most significant byte of `data`.
Bit `i` of `mask` stands for byte `i` and is set when that byte is masked, that is, not written (R1; the place of the bits
is the model's own, log entry 9). -/
structure WriteWord where
  data : Word
  mask : BitVec 4
  deriving DecidableEq, Repr

/-- Byte `i` of the word is masked. -/
def WriteWord.masked (w : WriteWord) (i : Nat) : Bool := w.mask.getLsbD i

/-- All four bytes are masked: not a write of that word (R7, R16). -/
def WriteWord.allMasked (w : WriteWord) : Bool := w.mask == 15#4

/-- No byte is masked. -/
def WriteWord.whole (w : WriteWord) : Bool := w.mask == 0#4

/-- A PIN field of a command record: a length byte and eight digit bytes (12_formats.md, section 12.4). -/
structure PinField where
  length : Byte
  d0 : Byte
  d1 : Byte
  d2 : Byte
  d3 : Byte
  d4 : Byte
  d5 : Byte
  d6 : Byte
  d7 : Byte
  deriving DecidableEq, Repr

/-- The eight digit places of a PIN field, in the order entered. -/
def PinField.places (p : PinField) : List Byte := [p.d0, p.d1, p.d2, p.d3, p.d4, p.d5, p.d6, p.d7]

/-- The commands and events the part takes, one for each row of the table of operations and events.
The commands of the command ring carry the fields of their command record, raw, tag first. -/
inductive Instr where
  /-- MEDIA_COMMAND_PHASE: direction, byte address and word count of a media transaction (R1). -/
  | mediaCommandPhase (dir : Direction) (addr : Word) (count : Nat)
  /-- MEDIA_TRANSACTION_COMPLETE: the last word passes (R1). For a plain write `words` are the words still to pass. -/
  | mediaTransactionComplete (words : List WriteWord)
  /-- MEDIA_RESUME: a held media transaction resumes (R6). -/
  | mediaResume
  /-- ANCHOR_WRITE: a written anchor word with no behaviour of its own passes (R7). -/
  | anchorWrite (w : WriteWord)
  /-- COMMAND_RING_SLOTS: the command ring slots word passes (R10). -/
  | commandRingSlots (w : WriteWord)
  /-- REPORT_RING_SLOTS: the report ring slots word passes (R10). -/
  | reportRingSlots (w : WriteWord)
  /-- COMMAND_TAIL: the command tail word passes (R12). -/
  | commandTail (w : WriteWord)
  /-- REPORT_TAIL: the report tail word passes (R151). -/
  | reportTail (w : WriteWord)
  /-- HEADER_WRITE: a header word passes to a slot of a lane ring (R23). -/
  | headerWrite (w : WriteWord)
  /-- PAYLOAD_WRITE: a payload word passes to a slot of a lane ring (R29). -/
  | payloadWrite (w : WriteWord)
  /-- LANE_READ_WORD: a word of a lane ring read is presented (R106). -/
  | laneReadWord
  /-- COMMAND_FETCH_REQUEST: the command unit begins a fetch (R142). -/
  | commandFetchRequest
  /-- SITE_KEY {key} (R62). -/
  | siteKey (tag : Word) (key : BitVec 64)
  /-- TARIFF {tax rate, site clamp, house ceiling, discreet class, lift minutes} (R131). -/
  | tariff (tag : Word) (taxRate : BitVec 16) (siteClamp houseCeiling discreetClass : Byte) (liftMinutes : BitVec 16)
  /-- OPEN_STAY {stay number, guest ceiling, credit limit, discount, PIN} (R134). -/
  | openStay (tag : Word) (number : Word) (ceiling : Byte) (credit : Word) (discount : Byte) (pin : PinField)
  /-- CLOSE_STAY (R135). -/
  | closeStay (tag : Word)
  /-- STAY_QUERY (R137). -/
  | stayQuery (tag : Word)
  /-- ACK_CHARGES {sequence} (R120). -/
  | ackCharges (tag : Word) (sequence : Word)
  /-- LOG_REGION {base, slots} (R122). -/
  | logRegion (tag : Word) (base : Word) (slots : BitVec 16)
  /-- SET_CREDIT {credit limit} (R118). -/
  | setCredit (tag : Word) (limit : Word)
  /-- BUY {title} (R116). -/
  | buy (tag : Word) (title : BitVec 16)
  /-- BIND {lane, ring base, slots, service, role} (R17), in the order of the record's bytes. -/
  | bind (tag : Word) (lane role service : Byte) (base : Word) (slots : BitVec 16)
  /-- UNBIND {lane} (R19). -/
  | unbind (tag : Word) (lane : Byte)
  /-- UNLOCK {PIN} (R90). -/
  | unlock (tag : Word) (pin : PinField)
  /-- RELOCK (R93). -/
  | relock (tag : Word)
  /-- SET_CEILING {ceiling, PIN} (R94). -/
  | setCeiling (tag : Word) (ceiling : Byte) (pin : PinField)
  /-- CHANGE_PIN {old PIN, new PIN} (R95). -/
  | changePin (tag : Word) (old new : PinField)
  /-- QUERY_TITLE {title} (R79). -/
  | queryTitle (tag : Word) (title : BitVec 16)
  /-- RESTART (R160). -/
  | restart (tag : Word)
  /-- UNKNOWN: a record whose command code is unassigned (R144). -/
  | unknown (tag : Word) (code : Byte)
  /-- REPORT_TAKE: the report writer takes from the pending queue (R146). -/
  | reportTake
  /-- REPORT_WRITE_COMPLETE: the last word of a REPORT write passes (R146). -/
  | reportWriteComplete
  /-- LOG_WRITE_BEGIN: the LOG agent raises its request (R124). -/
  | logWriteBegin
  /-- LOG_WRITE_COMPLETE: the last word of a LOG write passes (R124). -/
  | logWriteComplete
  /-- SECONDS_TICK (R138). -/
  | secondsTick
  /-- PREVIEW_END: at a tick, the preview of the entry at which the meter stands is at its end (R73). -/
  | previewEnd
  /-- RENTAL_LAPSED: at a tick, the rental of the entry at which the meter stands lapses (R75). -/
  | rentalLapsed
  /-- LIFT_EXPIRED: at a tick, the lift remainder reaches 0 (R91). -/
  | liftExpired
  /-- LOCKOUT_ENDED: at a tick, the lockout remainder reaches 0 (R88). -/
  | lockoutEnded
  /-- ENTER_RETAIN: the 32nd consecutive low sample ends RUN (R154). `passed` are the words of the burst holding the store
  port that passed since its grant and have no step of their own (log entry 8). -/
  | enterRetain (passed : List WriteWord)
  /-- SUPPLY_RECOVER: a good sample in RETAIN (R155). -/
  | supplyRecover
  /-- SUPPLY_RELAPSE: a low sample in RECOVER (R155). -/
  | supplyRelapse
  /-- ENTER_RUN: the 4,096th consecutive good sample (R156). `changed` are the bytes of the store that the store devices
  came up with (log entry 3). -/
  | enterRun (changed : List (BitVec 26 × Byte))
  /-- POWER_ON: the backup supply rises from below its holding level (R156). -/
  | powerOn
  /-- RESET_ASSERT: the reset line is asserted (R159). `passed` as for ENTER_RETAIN. -/
  | resetAssert (passed : List WriteWord)
  /-- RESET_RELEASE: the reset line is released (R159). -/
  | resetRelease
  /-- SUPPLY_SAMPLE: one sample of the main supply, in millivolts (R153). -/
  | supplySample (millivolts : Nat)
  /-- HOUSE_ACCESS_DISCARDED: an orphaned house access reaches its last word (R11, R15). -/
  | houseAccessDiscarded
  /-- RETAINED_STORE_DECAY: the retained store loses its contents (R157). `left` are the contents it then holds, which the manual
  leaves open (log entry 11). -/
  | retainedStoreDecay
  deriving DecidableEq, Repr

end Sys2Proof
end

