-- ==== Sys2Proof/Machine/Bytes.lean ====
section
/-! DEFINITION. Byte order: words and fields as big-endian bytes (00_scope.md, section 5; 12_formats.md). -/

namespace Sys2Proof.Machine

/-- Byte `i` of a word, byte 0 at the lowest address being the most significant. -/
def byteOf (w : Word) (i : Nat) : Byte := w.extractLsb' (24 - 8 * i) 8

/-- The word whose four bytes are given from the lowest address up. -/
def be32 (b0 b1 b2 b3 : Byte) : Word := b0 ++ b1 ++ b2 ++ b3

/-- The 16-bit field whose two bytes are given from the lowest address up. -/
def be16 (b0 b1 : Byte) : BitVec 16 := b0 ++ b1

/-- The 64-bit field made of a high and a low word. -/
def be64 (high low : Word) : BitVec 64 := high ++ low

/-- The four bytes of a word, from the lowest address up. -/
def wordBytes (w : Word) : List Byte := [byteOf w 0, byteOf w 1, byteOf w 2, byteOf w 3]

/-- The two bytes of a 16-bit field, from the lowest address up. -/
def halfBytes (h : BitVec 16) : List Byte := [h.extractLsb' 8 8, h.extractLsb' 0 8]

/-- A number as one byte. -/
def nat8 (n : Nat) : List Byte := [BitVec.ofNat 8 n]

/-- A number as a 16-bit field. -/
def nat16 (n : Nat) : List Byte := halfBytes (BitVec.ofNat 16 n)

/-- A number as a 32-bit field. -/
def nat32 (n : Nat) : List Byte := wordBytes (BitVec.ofNat 32 n)

/-- A flag as a number. -/
def flagBit (b : Bool) : Nat := if b then 1 else 0

/-- `n` zero bytes (R163). -/
def zeros (n : Nat) : List Byte := List.replicate n 0

/-- Fields followed by zero bytes up to `n` bytes in all (R163). -/
def padTo (n : Nat) (bs : List Byte) : List Byte := bs ++ zeros (n - bs.length)

/-- Bytes grouped into words; a rest of fewer than four bytes makes no word. -/
def toWords : List Byte → List Word
  | a :: b :: c :: d :: rest => be32 a b c d :: toWords rest
  | _ => []

/-- The bytes of a sequence of words. -/
def ofWords (ws : List Word) : List Byte := ws.flatMap wordBytes

/-- The word left when the unmasked bytes of `w` replace the matching bytes of `old` (R7). -/
def mergeWord (old : Word) (w : WriteWord) : Word :=
  be32 (if w.masked 0 then byteOf old 0 else byteOf w.data 0)
    (if w.masked 1 then byteOf old 1 else byteOf w.data 1)
    (if w.masked 2 then byteOf old 2 else byteOf w.data 2)
    (if w.masked 3 then byteOf old 3 else byteOf w.data 3)

end Sys2Proof.Machine
end

