-- ==== Sys2Proof/Decode.lean ====
section
/-! DEFINITION. The command record (section 12.4): reading the 32 bytes of a record as the command it carries, and writing a
command's record; and the opcode table's words. -/

namespace Sys2Proof

open Sys2Proof.Machine

/-- The command a word spells by the bits of spec/opcode_table.json. No row of the table gives bits, so no word spells
one. -/
def decodeTableWord (_nbits _w : Nat) : Option Instr := none

/-- Byte `i` of a record. -/
def recordByte (r : List Byte) (i : Nat) : Byte := r.getD i 0

/-- The 16-bit field at byte `i`. -/
def recordHalf (r : List Byte) (i : Nat) : BitVec 16 := be16 (recordByte r i) (recordByte r (i + 1))

/-- The 32-bit field at byte `i`. -/
def recordWord (r : List Byte) (i : Nat) : Word :=
  be32 (recordByte r i) (recordByte r (i + 1)) (recordByte r (i + 2)) (recordByte r (i + 3))

/-- The PIN field at byte `i`. -/
def recordPin (r : List Byte) (i : Nat) : PinField :=
  { length := recordByte r i
    d0 := recordByte r (i + 1)
    d1 := recordByte r (i + 2)
    d2 := recordByte r (i + 3)
    d3 := recordByte r (i + 4)
    d4 := recordByte r (i + 5)
    d5 := recordByte r (i + 6)
    d6 := recordByte r (i + 7)
    d7 := recordByte r (i + 8) }

/-- The command a record carries (R144, section 12.4). Bytes that a command does not name are not read. -/
def decodeRecord (r : List Byte) : Instr :=
  let tag := recordWord r 0
  let code := recordByte r 4
  match code.toNat with
  | 0x01 => .siteKey tag (be64 (recordWord r 8) (recordWord r 12))
  | 0x02 => .tariff tag (recordHalf r 8) (recordByte r 10) (recordByte r 11) (recordByte r 12) (recordHalf r 13)
  | 0x03 => .openStay tag (recordWord r 8) (recordByte r 12) (recordWord r 13) (recordByte r 17) (recordPin r 18)
  | 0x04 => .closeStay tag
  | 0x05 => .stayQuery tag
  | 0x06 => .ackCharges tag (recordWord r 8)
  | 0x07 => .logRegion tag (recordWord r 8) (recordHalf r 12)
  | 0x08 => .setCredit tag (recordWord r 8)
  | 0x09 => .buy tag (recordHalf r 8)
  | 0x0A => .bind tag (recordByte r 8) (recordByte r 9) (recordByte r 10) (recordWord r 12) (recordHalf r 16)
  | 0x0B => .unbind tag (recordByte r 8)
  | 0x0C => .unlock tag (recordPin r 8)
  | 0x0D => .relock tag
  | 0x0E => .setCeiling tag (recordByte r 8) (recordPin r 9)
  | 0x0F => .changePin tag (recordPin r 8) (recordPin r 17)
  | 0x10 => .queryTitle tag (recordHalf r 8)
  | 0x11 => .restart tag
  | _ => .unknown tag code

/-- The tag, the command code and the parameter bytes of a command of the command ring; `none` for a row that is not a
command record (section 12.4). -/
def recordFields : Instr → Option (Word × Byte × List Byte)
  | .siteKey tag key => some (tag, 0x01, wordBytes (key.extractLsb' 32 32) ++ wordBytes (key.extractLsb' 0 32))
  | .tariff tag tax clamp house discreet minutes =>
    some (tag, 0x02, halfBytes tax ++ [clamp, house, discreet] ++ halfBytes minutes)
  | .openStay tag number ceiling credit discount pin =>
    some (tag, 0x03, wordBytes number ++ [ceiling] ++ wordBytes credit ++ [discount] ++ pinBytes pin)
  | .closeStay tag => some (tag, 0x04, [])
  | .stayQuery tag => some (tag, 0x05, [])
  | .ackCharges tag sequence => some (tag, 0x06, wordBytes sequence)
  | .logRegion tag base slots => some (tag, 0x07, wordBytes base ++ halfBytes slots)
  | .setCredit tag limit => some (tag, 0x08, wordBytes limit)
  | .buy tag title => some (tag, 0x09, halfBytes title)
  | .bind tag lane role service base slots =>
    some (tag, 0x0A, [lane, role, service, 0] ++ wordBytes base ++ halfBytes slots)
  | .unbind tag lane => some (tag, 0x0B, [lane])
  | .unlock tag pin => some (tag, 0x0C, pinBytes pin)
  | .relock tag => some (tag, 0x0D, [])
  | .setCeiling tag ceiling pin => some (tag, 0x0E, ceiling :: pinBytes pin)
  | .changePin tag old new => some (tag, 0x0F, pinBytes old ++ pinBytes new)
  | .queryTitle tag title => some (tag, 0x10, halfBytes title)
  | .restart tag => some (tag, 0x11, [])
  | .unknown tag code => some (tag, code, [])
  | .mediaCommandPhase _ _ _ => none
  | .mediaTransactionComplete _ => none
  | .mediaResume => none
  | .anchorWrite _ => none
  | .commandRingSlots _ => none
  | .reportRingSlots _ => none
  | .commandTail _ => none
  | .reportTail _ => none
  | .headerWrite _ => none
  | .payloadWrite _ => none
  | .laneReadWord => none
  | .commandFetchRequest => none
  | .reportTake => none
  | .reportWriteComplete => none
  | .logWriteBegin => none
  | .logWriteComplete => none
  | .secondsTick => none
  | .previewEnd => none
  | .rentalLapsed => none
  | .liftExpired => none
  | .lockoutEnded => none
  | .enterRetain _ => none
  | .supplyRecover => none
  | .supplyRelapse => none
  | .enterRun _ => none
  | .powerOn => none
  | .resetAssert _ => none
  | .resetRelease => none
  | .supplySample _ => none
  | .houseAccessDiscarded => none
  | .retainedStoreDecay => none
where
  /-- The nine bytes of a PIN field. -/
  pinBytes (p : PinField) : List Byte := p.length :: p.places

/-- The 32 bytes of a command's record, with 0 in every byte the command does not name. -/
def encodeRecord (i : Instr) : Option (List Byte) :=
  (recordFields i).map (fun f => wordBytes f.1 ++ [f.2.1, 0, 0, 0] ++ padTo 24 f.2.2)

end Sys2Proof
end

