-- ==== Sys2Proof/Machine/Keystream.lean ====
section
/-! DEFINITION. The descrambler: the keystream generator and its two uses (chapter 4). -/

namespace Sys2Proof.Machine

/-- The keystream word of a key, a service and a position (R52). -/
def keystream (key : BitVec 64) (service : Byte) (position : BitVec 24) : Word :=
  let high : Word := key.extractLsb' 32 32
  let low : Word := key.extractLsb' 0 32
  let mixed := low + (service.setWidth 32 <<< 24) + position.setWidth 32
  let keyed := mixed ^^^ high
  let spread := keyed * 65539#32
  spread ^^^ (spread >>> 13)

/-- The position of payload word `k` of a cell (R53). -/
def payloadPosition (continuity : BitVec 4) (k : Nat) : BitVec 24 :=
  BitVec.ofNat 24 (continuity.toNat * 65536 + k)

/-- The position of the `i`th wrapped value of a WORD notice (R43, R53). -/
def unwrapPosition (number : BitVec 16) (i : Nat) : BitVec 24 :=
  BitVec.ofNat 24 (0x800000 + number.toNat * 4 + i)

/-- Payload word `k` descrambled (R54). -/
def descrambleWord (key : BitVec 64) (service : Byte) (continuity : BitVec 4) (k : Nat) (stored : Word) : Word :=
  stored ^^^ keystream key service (payloadPosition continuity k)

/-- The `i`th wrapped value of a WORD notice unwrapped under the site key (R60). -/
def unwrapWord (siteKey : BitVec 64) (service : Byte) (number : BitVec 16) (i : Nat) (wrapped : Word) : Word :=
  wrapped ^^^ keystream siteKey service (unwrapPosition number i)

end Sys2Proof.Machine
end

