-- ==== Sys2Proof/Machine/State.lean ====
section
/-! DEFINITION. The state of the part, as plain data, and its state after reset.
Each type's docstring cites the rule of spec/ that gives it; INVENTORY.md lists every field. -/

namespace Sys2Proof.Machine

/-! ## The memory path (chapter 1) -/

/-- The three house agents (R13, section 1.5). -/
inductive Agent where
  | command
  | report
  | log
  deriving DecidableEq, Repr

/-- Which house agents have a request waiting for the store port (R13). -/
structure Requests where
  command : Bool
  report : Bool
  log : Bool
  deriving DecidableEq, Repr

/-- Who holds the store port (R13). A house access carries its burst: the store address, the eight words a write carries
(none for a fetch), and whether it is an orphan, whose completion is discarded (R11, R15, R159). -/
inductive Port where
  | free
  | media
  | house (agent : Agent) (addr : Nat) (data : List Word) (orphan : Bool)
  deriving DecidableEq, Repr

/-- The class of a media transaction (R2). -/
inductive MediaClass where
  | anchor
  | plain
  | lane (n : Fin 4)
  deriving DecidableEq, Repr

/-- How far a media transaction has come: waiting for the store port, in its data phase, or held (R1, R6). -/
inductive MediaPhase where
  | waiting
  | data
  | held
  deriving DecidableEq, Repr

/-- The two lane roles (00_scope.md, section 4). -/
inductive Role where
  | main
  | mosaic
  deriving DecidableEq, Repr

/-- The eight reasons of a verdict (section 7.2). -/
inductive Reason where
  | shownClear
  | shownOpened
  | heldRating
  | heldUnpaid
  | heldNokey
  | heldStale
  | heldUnderrun
  | heldNotcell
  deriving DecidableEq, Repr

/-- The five flags of a verdict (R105). -/
structure VerdictFlags where
  lost : Bool
  preview : Bool
  lifted : Bool
  nopicture : Bool
  reread : Bool
  deriving DecidableEq, Repr

/-- What is presented for a payload word (R106): zeros, the stored word, or the stored word descrambled with a key, a
service and a continuity (R54). -/
inductive Treatment where
  | zeros
  | asStored
  | descramble (key : BitVec 64) (service : Byte) (continuity : BitVec 4)
  deriving DecidableEq, Repr

/-- The judgement of one read burst (R99): reason, flags, payload treatment, whether the burst makes the slot's first
read, and the seen mark it hands (R108). -/
structure Judgement where
  reason : Reason
  flags : VerdictFlags
  treatment : Treatment
  firstRead : Bool
  mark : Option (BitVec 16 × Role)
  deriving DecidableEq, Repr

/-- A media transaction in flight (R1). `passed` counts the words that have passed; `bound` says that the binding of a lane
ring transaction still stands (R5); `judged` is the judgement made at the grant of a lane ring read (R99). -/
structure MediaTxn where
  dir : Direction
  addr : Nat
  count : Nat
  passed : Nat
  cls : MediaClass
  phase : MediaPhase
  bound : Bool
  judged : Option Judgement
  deriving DecidableEq, Repr

/-- A command phase at the media port: what R1 says it takes. -/
structure CommandPhase where
  dir : Direction
  addr : Nat
  count : Nat
  deriving DecidableEq, Repr

/-- The latched anchor words (R7). -/
structure AnchorLatches where
  commandBase : Word
  commandSlots : Word
  commandTail : Word
  reportBase : Word
  reportSlots : Word
  reportTail : Word
  deriving DecidableEq, Repr

/-- The state of a ring and, when it is OPEN, its ring in force: base, slot count and head (section 1.4). -/
inductive Ring where
  | closed
  | inForce (base slots head : Nat)
  | badGeometry
  deriving DecidableEq, Repr

/-! ## Lanes and service slots (chapters 2 and 3) -/

/-- One value for each of the four lanes, or of the four service slots. -/
structure Four (α : Type) where
  v0 : α
  v1 : α
  v2 : α
  v3 : α
  deriving DecidableEq, Repr

/-- The binding of a lane (section 2.2). -/
structure Binding where
  base : Nat
  slots : Nat
  service : Byte
  role : Role
  deriving DecidableEq, Repr

/-- Alignment state of a lane (section 2.4). -/
inductive Alignment where
  | hunt
  | locked
  deriving DecidableEq, Repr

/-- State of a directory entry (section 2.2). -/
inductive EntryState where
  | empty
  | written
  | read
  deriving DecidableEq, Repr

/-- Kind of a directory entry (section 2.2). -/
inductive Kind where
  | picture
  | control
  | filler
  | bad
  deriving DecidableEq, Repr

/-- Scramble field of a directory entry (section 2.2). -/
inductive Scramble where
  | clear
  | even
  | odd
  deriving DecidableEq, Repr

/-- One entry of the cell directory (section 2.2). -/
structure Entry where
  state : EntryState
  kind : Kind
  scramble : Scramble
  epoch : Byte
  keyed : Bool
  title : BitVec 16
  rating : Nat
  pay : Bool
  continuity : BitVec 4
  lostBefore : Bool
  deriving DecidableEq, Repr

/-- An open notice assembly: the slot it belongs to and its 31 payload words, each absent until it has arrived (R29). -/
structure Assembly where
  slot : Nat
  words : List (Option Word)
  deriving DecidableEq, Repr

/-- One lane engine (section 2.2). `slice` holds one entry per ring slot of a bound lane; `assembly` is `none` when the
notice assembly buffer is closed. -/
structure Lane where
  binding : Option Binding
  alignment : Alignment
  good : Nat
  bad : Nat
  reference : Option (BitVec 4)
  slice : List Entry
  assembly : Option Assembly
  deriving DecidableEq, Repr

/-- A word pair (R46). -/
structure WordPair where
  even : BitVec 64
  odd : BitVec 64
  number : BitVec 16
  valid : Bool
  deriving DecidableEq, Repr

/-- A service slot in use (R46). -/
structure ServiceSlot where
  service : Byte
  refs : Nat
  title : BitVec 16
  rating : Nat
  pay : Bool
  current : WordPair
  previous : WordPair
  epoch : Byte
  deriving DecidableEq, Repr

/-! ## Charges (chapter 8) -/

/-- A record of the charge list with its written flag (R119). -/
structure ChargeItem where
  record : ChargeRecord
  written : Bool
  deriving DecidableEq, Repr

/-- The current log region (R123). -/
structure LogRegion where
  base : Nat
  slots : Nat
  index : Nat
  deriving DecidableEq, Repr

/-- The staged log region (R123). -/
structure StagedRegion where
  base : Nat
  slots : Nat
  deriving DecidableEq, Repr

/-- A LOG write in progress (R124): the record, its place in the store, and whether the record is still in the list. -/
structure LogWrite where
  record : ChargeRecord
  place : Nat
  listed : Bool
  deriving DecidableEq, Repr

/-- The charge unit (section 8.1). -/
structure ChargeUnit where
  lastIssued : Nat
  acknowledged : Nat
  netTotal : Nat
  taxTotal : Nat
  count : Nat
  list : List ChargeItem
  current : Option LogRegion
  staged : Option StagedRegion
  write : Option LogWrite
  deriving DecidableEq, Repr

/-! ## Reports (chapter 10) -/

/-- The result codes (R150). -/
inductive ResultCode where
  | done
  | unknown
  | badFormat
  | stayOpen
  | stayBusy
  | noStay
  | closing
  | laneBusy
  | laneIdle
  | overlap
  | noDirectory
  | roleTaken
  | pinWrong
  | lockedOut
  | noTitle
  | rating
  | credit
  | logFull
  | already
  | free
  | stagedFull
  deriving DecidableEq, Repr

/-- The restart causes (section 11.1). -/
inductive Cause where
  | cold
  | dip
  | line
  | command
  deriving DecidableEq, Repr

/-- The cause flags (R149). -/
structure Causes where
  cold : Bool
  dip : Bool
  line : Bool
  command : Bool
  deriving DecidableEq, Repr

/-- The reason of PREVIEW_ENDED: mosaic-only viewing, or the result of the failed commit (R73, R74). -/
inductive PreviewReason where
  | mosaic
  | failed (result : ResultCode)
  deriving DecidableEq, Repr

/-- The reason of LIFT_ENDED (R92). -/
inductive LiftReason where
  | expired
  | relock
  | close
  | restart
  deriving DecidableEq, Repr

/-- The outcome of LOG_REGION_NEEDED (R125). -/
inductive RegionOutcome where
  | stagedTaken
  | noneLeft
  deriving DecidableEq, Repr

/-- The events the part raises (R150). -/
inductive Event where
  | restarted (causes : Causes)
  | laneLocked (lane : Fin 4) (service : Byte)
  | laneLost (lane : Fin 4) (service : Byte)
  | previewStarted (title : BitVec 16) (role : Role)
  | purchased (title : BitVec 16) (sequence : Nat)
  | previewEnded (title : BitVec 16) (reason : PreviewReason)
  | rentalLapsed (title : BitVec 16)
  | titleTableFull (title : BitVec 16)
  | liftEnded (reason : LiftReason)
  | lockoutStarted (remainder : Nat)
  | lockoutEnded
  | logRegionNeeded (outcome : RegionOutcome) (waiting : Nat)
  | stayVacant (number : Word)
  deriving DecidableEq, Repr

/-- The payloads of result reports (section 12.5). -/
inductive Payload where
  | absent
  | tariff (t : Tariff)
  | openStay (ceiling credit discount : Nat)
  | closeStay (sequence netTotal taxTotal count : Nat)
  | stayQuery (state : StayState) (netTotal taxTotal remaining lastIssued acknowledged : Nat)
  | ackCharges (acknowledged lastIssued : Nat)
  | logRegion (staged : Bool)
  | setCredit (limit remaining : Nat)
  | setCreditSpent (spent : Nat)
  | buy (sequence net tax spent remaining : Nat)
  | buyCredit (total remaining : Nat)
  | unlock (lift : Nat)
  | setCeiling (ceiling : Nat)
  | triesLeft (tries : Nat)
  | lockedOut (remainder : Nat)
  | queryTitle (state : TitleState) (rating used limit price remaining sequence : Nat)
  deriving DecidableEq, Repr

/-- A report, but for its LOST_BEFORE flag (R150). -/
inductive ReportBody where
  | result (tag : Word) (code : Byte) (result : ResultCode) (payload : Payload)
  | event (e : Event)
  deriving DecidableEq, Repr

/-- A report of the pending queue; `lost` is set only on one that an open returned to the queue with LOST_BEFORE (R147). -/
structure Report where
  body : ReportBody
  lost : Bool
  deriving DecidableEq, Repr

/-- A report write in progress (R146): the report, its place in the store, and whether an open of the report ring has ended
it while it held the store port (R11). -/
structure ReportWrite where
  report : Report
  place : Nat
  ended : Bool
  deriving DecidableEq, Repr

/-! ## Supply watch and ticks (chapters 9 and 11) -/

/-- The supply states, each with the filter count it holds (section 11.1). -/
inductive SupplyState where
  | run (low : Nat)
  | retain
  | recover (good : Nat)
  deriving DecidableEq, Repr

/-- The model's own: the work outstanding of the tick in progress. `meter` holds the titles on which the viewing meter has yet
to act, in its order (R71): all of them where the lock unit hands its reports first, else from one whose preview ends or
whose rental lapses; `lift` and `lockout` say that the lift remainder or the lockout remainder is to reach 0 (log entry 6). -/
structure TickWork where
  meter : List (BitVec 16)
  lift : Bool
  lockout : Bool
  deriving DecidableEq, Repr

/-! ## The state -/

/-- The state of the part, of its ports and of the store on its store port. -/
structure State where
  /-- The store on the store port: the bytes that differ from an unlisted one, addresses rising (section 1.2). -/
  store : List Host.Cell
  /-- The media transaction in flight (R1). -/
  media : Option MediaTxn
  /-- The command phase that the media processor presents behind the transaction in flight, which the media port takes only after
  that one is complete (R1; log entry 24). -/
  nextPhase : Option CommandPhase
  /-- The words presented on the media port, in order, since it last took a command phase with no transaction in flight
  (R1, R106). -/
  presented : List Word
  anchor : AnchorLatches
  commandRing : Ring
  reportRing : Ring
  port : Port
  requests : Requests
  waitCount : Nat
  rotation : List Agent
  lanes : Four Lane
  slots : Four (Option ServiceSlot)
  siteKey : BitVec 64
  /-- The title table in its recency order, least recent first (R65). -/
  titles : List TitleEntry
  /-- The refused list, oldest first (R68). -/
  refused : List (BitVec 16)
  lock : Lock
  stay : Stay
  tariff : Tariff
  charges : ChargeUnit
  /-- The command slot of the fetch in progress (R142). -/
  fetch : Option Nat
  /-- The pending queue of reports, oldest first (R145). -/
  reports : List Report
  reportWrite : Option ReportWrite
  overflow : Bool
  causes : Causes
  liftMark : Bool
  /-- The attention line stands (R151). -/
  attention : Bool
  supply : SupplyState
  /-- The check word held since RUN ended (R154, R155). -/
  checkWord : Option Word
  /-- The reset line is asserted (R159). -/
  resetLine : Bool
  /-- The reference clock periods counted toward the next tick (R138). -/
  tickCount : Nat
  tick : TickWork
  /-- The model's own: how many free values have been drawn (log entry 6). -/
  freeDraws : Nat
  /-- The model's own: the commands and events that wait, first in, first out. -/
  pending : List Instr
  deriving DecidableEq, Repr

/-- Why the machine stops with a fault. -/
inductive Fault where
  /-- Raised by MEDIA_COMMAND_PHASE for a byte address at or above 2^26, which no store device holds: the bus has no such
  address (00_scope.md, section 3). Safe: the model stops where the manual gives no behaviour. -/
  | addressOutsideStore
  deriving DecidableEq, Repr

/-- Why the machine gives a command no meaning. -/
inductive Refusal where
  /-- Raised by exec's arm for a row of the table that has no meaning yet. Safe. No arm of this model raises it. -/
  | notModelled (mnemonic : String)
  /-- Raised by MEDIA_COMMAND_PHASE for an address, word count or span that is no transaction of the burst store bus
  (00_scope.md, section 3: a multiple of 4, 1 to 16 words, inside one aligned 64-byte block). Safe: the manual gives such
  a burst no behaviour. -/
  | notABurst
  deriving DecidableEq, Repr

/-! ## Values after a restart -/

/-- An unbound lane (section 2.2, R33). -/
def Lane.unbound : Lane :=
  { binding := none, alignment := .hunt, good := 0, bad := 0, reference := none, slice := [], assembly := none }

/-- The same value four times. -/
def Four.all {α : Type} (a : α) : Four α := ⟨a, a, a, a⟩

/-- The latches at 0 (R15). -/
def AnchorLatches.cleared : AnchorLatches := ⟨0, 0, 0, 0, 0, 0⟩

/-- No agent waits. -/
def Requests.none : Requests := ⟨false, false, false⟩

/-- No cause is held. -/
def Causes.none : Causes := ⟨false, false, false, false⟩

/-- The rotation order after any restart (R15). -/
def Agent.restartOrder : List Agent := [.command, .report, .log]

/-- No tick is in progress. -/
def TickWork.none : TickWork := ⟨[], false, false⟩

/-- The cold defaults of the tariff (R130). -/
def Tariff.cold : Tariff := ⟨0, 3, 2, 8, 30⟩

/-- The stay record after a cold start (R141). -/
def Stay.cold : Stay := ⟨.vacant, 0, 0, 0, 0, 0⟩

/-- The lock unit after a cold start (R98). -/
def Lock.cold : Lock := ⟨none, 0, 0, 0⟩

/-- The charge unit after a cold start (R127). -/
def ChargeUnit.cold : ChargeUnit := ⟨0, 0, 0, 0, 0, [], none, none, none⟩

/-- The part right after a COLD restart, which is what power-up from nothing is (R156, R161): in RUN, every item at the
value its owner's restart rule gives, the cause COLD held (R149), and nothing written to the store (log entries 1, 2). -/
def State.reset : State :=
  { store := []
    media := none
    nextPhase := none
    presented := []
    anchor := AnchorLatches.cleared
    commandRing := .closed
    reportRing := .closed
    port := .free
    requests := Requests.none
    waitCount := 0
    rotation := Agent.restartOrder
    lanes := Four.all Lane.unbound
    slots := Four.all none
    siteKey := 0
    titles := []
    refused := []
    lock := Lock.cold
    stay := Stay.cold
    tariff := Tariff.cold
    charges := ChargeUnit.cold
    fetch := none
    reports := []
    reportWrite := none
    overflow := false
    causes := ⟨true, false, false, false⟩
    liftMark := false
    attention := false
    supply := .run 0
    checkWord := none
    resetLine := false
    tickCount := 0
    tick := TickWork.none
    freeDraws := 0
    pending := [] }

end Sys2Proof.Machine
end

