-- ==== Sys2Proof/Machine/Flags.lean ====
section
/-! DEFINITION. The flag bytes and state codes software reads: the verdict byte (R107, section 12.1), the part word
(R9, section 12.3), the heads, and the cause flags (section 12.5). -/

namespace Sys2Proof.Machine

/-- The code of a reason (section 7.2). -/
def reasonCode : Reason → Nat
  | .shownClear => 0
  | .shownOpened => 1
  | .heldRating => 2
  | .heldUnpaid => 3
  | .heldNokey => 4
  | .heldStale => 5
  | .heldUnderrun => 6
  | .heldNotcell => 7

/-- The verdict byte: the reason in bits 2 to 0, one flag in each bit above (section 12.1). -/
def verdictByte (r : Reason) (f : VerdictFlags) : Byte :=
  BitVec.ofNat 8 (reasonCode r + 8 * flagBit f.lost + 16 * flagBit f.preview + 32 * flagBit f.lifted +
    64 * flagBit f.nopicture + 128 * flagBit f.reread)

/-- No flag is set. -/
def VerdictFlags.none : VerdictFlags := ⟨false, false, false, false, false⟩

/-- The cause byte of RESTARTED: bit 0 COLD, bit 1 DIP, bit 2 LINE, bit 3 COMMAND (section 12.5). -/
def causeByte (c : Causes) : Nat := flagBit c.cold + 2 * flagBit c.dip + 4 * flagBit c.line + 8 * flagBit c.command

/-- Some cause is held. -/
def Causes.any (c : Causes) : Bool := c.cold || c.dip || c.line || c.command

/-- The cause flags that a restart of a cause leaves (R149). -/
def Causes.after (c : Causes) : Cause → Causes
  | .cold => ⟨true, false, false, false⟩
  | .dip => ⟨false, true, false, false⟩
  | .line => { c with line := true }
  | .command => { c with command := true }

/-- The code of the supply state in the part word (section 12.3). -/
def supplyCode : SupplyState → Nat
  | .run _ => 0
  | .retain => 1
  | .recover _ => 2

/-- The code of the stay state in the part word (section 12.3). That the stay state of a STAY_QUERY payload has the same codes is
the model's choice of log entry 25 (DESIGN CHOICE, unsafe): section 12.5 gives that field none. -/
def stayCode : StayState → Nat
  | .vacant => 0
  | .occupied => 1
  | .closing => 2

/-- The code of a ring state in the part word (section 12.3). -/
def ringCode : Ring → Nat
  | .closed => 0
  | .inForce _ _ _ => 1
  | .badGeometry => 2

/-- The head of a ring; it reads 0 when the ring is CLOSED or BAD_GEOMETRY (R8). -/
def Ring.head : Ring → Nat
  | .inForce _ _ h => h
  | _ => 0

/-- The part word (R9, section 12.3). -/
def partWord (s : State) : Word :=
  be32 0x4E#8 (BitVec.ofNat 8 (supplyCode s.supply)) (BitVec.ofNat 8 (stayCode s.stay.state))
    (BitVec.ofNat 8 (16 * ringCode s.commandRing + ringCode s.reportRing))

/-- The code of a role (section 12.4). -/
def roleCode : Role → Nat
  | .main => 0
  | .mosaic => 1

/-- The role a role byte names, if any (section 12.4). -/
def roleOf (b : Byte) : Option Role := if b = 0 then some .main else if b = 1 then some .mosaic else none

end Sys2Proof.Machine
end

