-- ==== Sys2Proof/Machine/Formats.lean ====
section
/-! DEFINITION. The byte layouts of report records and charge records (sections 12.5 and 12.6, R163). -/

namespace Sys2Proof.Machine

/-- The result codes (section 12.5). -/
def resultCode : ResultCode → Nat
  | .done => 0
  | .unknown => 1
  | .badFormat => 2
  | .stayOpen => 3
  | .stayBusy => 4
  | .noStay => 5
  | .closing => 6
  | .laneBusy => 7
  | .laneIdle => 8
  | .overlap => 9
  | .noDirectory => 10
  | .roleTaken => 11
  | .pinWrong => 12
  | .lockedOut => 13
  | .noTitle => 14
  | .rating => 15
  | .credit => 16
  | .logFull => 17
  | .already => 18
  | .free => 19
  | .stagedFull => 20

/-- The code of a title state (section 12.5). -/
def titleStateCode : TitleState → Nat
  | .offered => 0
  | .preview => 1
  | .exhausted => 2
  | .purchased _ _ => 3
  | .lapsed _ _ => 4

/-- The reason byte of PREVIEW_ENDED (section 12.5). -/
def previewReasonCode : PreviewReason → Nat
  | .mosaic => 0x80
  | .failed r => resultCode r

/-- The reason byte of LIFT_ENDED (section 12.5). -/
def liftReasonCode : LiftReason → Nat
  | .expired => 0
  | .relock => 1
  | .close => 2
  | .restart => 3

/-- The outcome byte of LOG_REGION_NEEDED (section 12.5). -/
def regionOutcomeCode : RegionOutcome → Nat
  | .stagedTaken => 0
  | .noneLeft => 1

/-- The event codes (section 12.5). -/
def eventCode : Event → Nat
  | .restarted _ => 0x01
  | .laneLocked _ _ => 0x02
  | .laneLost _ _ => 0x03
  | .previewStarted _ _ => 0x04
  | .purchased _ _ => 0x05
  | .previewEnded _ _ => 0x06
  | .rentalLapsed _ => 0x07
  | .titleTableFull _ => 0x08
  | .liftEnded _ => 0x09
  | .lockoutStarted _ => 0x0A
  | .lockoutEnded => 0x0B
  | .logRegionNeeded _ _ => 0x0C
  | .stayVacant _ => 0x0D

/-- The fields of an event's payload, from byte 8 (section 12.5). -/
def eventFields : Event → List Byte
  | .restarted c => nat8 (causeByte c)
  | .laneLocked l v => nat8 l.val ++ [v]
  | .laneLost l v => nat8 l.val ++ [v]
  | .previewStarted t r => halfBytes t ++ nat8 (roleCode r)
  | .purchased t q => halfBytes t ++ zeros 2 ++ nat32 q
  | .previewEnded t r => halfBytes t ++ nat8 (previewReasonCode r)
  | .rentalLapsed t => halfBytes t
  | .titleTableFull t => halfBytes t
  | .liftEnded r => nat8 (liftReasonCode r)
  | .lockoutStarted n => nat16 n
  | .lockoutEnded => []
  | .logRegionNeeded o n => nat8 (regionOutcomeCode o) ++ nat8 n
  | .stayVacant n => wordBytes n

/-- The fields of a result's payload, from byte 8 (section 12.5). Section 12.5 gives no codes for the stay state of STAY_QUERY's
payload; that it carries those of the part word is the model's choice of log entry 25 (DESIGN CHOICE, unsafe). -/
def payloadFields : Payload → List Byte
  | .absent => []
  | .tariff t => nat16 t.taxRate ++ nat8 t.siteClamp ++ nat8 t.houseCeiling ++ nat8 t.discreetClass ++ nat16 t.liftMinutes
  | .openStay c k d => nat8 c ++ nat32 k ++ nat8 d
  | .closeStay q n t c => nat32 q ++ nat32 n ++ nat32 t ++ nat32 c
  | .stayQuery st n t r l a => nat8 (stayCode st) ++ zeros 3 ++ nat32 n ++ nat32 t ++ nat32 r ++ nat32 l ++ nat32 a
  | .ackCharges a l => nat32 a ++ nat32 l
  | .logRegion staged => nat8 (flagBit staged)
  | .setCredit l r => nat32 l ++ nat32 r
  | .setCreditSpent n => nat32 n
  | .buy q n t sp r => nat32 q ++ nat32 n ++ nat32 t ++ nat32 sp ++ nat32 r
  | .buyCredit t r => nat32 t ++ nat32 r
  | .unlock l => nat16 l
  | .setCeiling c => nat8 c
  | .triesLeft n => nat8 n
  | .lockedOut n => nat16 n
  | .queryTitle st rt u lim pr rem q =>
    nat8 (titleStateCode st) ++ nat8 rt ++ nat16 u ++ nat16 lim ++ nat16 pr ++ nat32 rem ++ nat32 q

/-- The 32 bytes of a report record; `lost` says whether it carries LOST_BEFORE (section 12.5, R163). -/
def reportBytes (body : ReportBody) (lost : Bool) : List Byte :=
  match body with
  | .result tag code r p =>
    [1#8, BitVec.ofNat 8 (flagBit lost), code, BitVec.ofNat 8 (resultCode r)] ++ wordBytes tag ++ padTo 24 (payloadFields p)
  | .event e =>
    [2#8, BitVec.ofNat 8 (flagBit lost), BitVec.ofNat 8 (eventCode e), 0#8] ++ zeros 4 ++ padTo 24 (eventFields e)

/-- The 32 bytes of a charge record (section 12.6, R163). -/
def chargeBytes (c : ChargeRecord) : List Byte :=
  match c.body with
  | .purchase discreet title service net tax =>
    nat32 c.sequence ++ wordBytes c.stayNumber ++ [1#8, BitVec.ofNat 8 (flagBit discreet)] ++ halfBytes title ++ zeros 3 ++
      [service] ++ nat32 c.second ++ nat32 c.spent ++ nat32 net ++ nat32 tax
  | .close count netTotal taxTotal =>
    nat32 c.sequence ++ wordBytes c.stayNumber ++ [2#8, 0#8] ++ zeros 2 ++ nat32 count ++ nat32 c.second ++ nat32 c.spent ++
      nat32 netTotal ++ nat32 taxTotal

/-- The eight words of a report write (R146). -/
def reportWords (r : Report) : List Word := toWords (reportBytes r.body r.lost)

/-- The eight words of a LOG write (R124). -/
def chargeWords (c : ChargeRecord) : List Word := toWords (chargeBytes c)

end Sys2Proof.Machine
end

