-- ==== Sys2Proof/Machine/Memory.lean ====
section
/-! DEFINITION. The store on the store port: a sparse list of bytes in one canonical form (addresses strictly rising, no byte
equal to what an unlisted address reads as), with big-endian words built from bytes here once. -/

namespace Sys2Proof.Machine

/-- What the byte at an address reads as. -/
def Memory.read : List Host.Cell → Nat → Byte
  | [], _ => Config.blankByte
  | (x, b) :: rest, a => if x = a then b else Memory.read rest a

/-- The store with one byte written. Writing the byte an unlisted address reads as removes the entry. -/
def Memory.write : List Host.Cell → Nat → Byte → List Host.Cell
  | [], a, b => if b = Config.blankByte then [] else [(a, b)]
  | (x, c) :: rest, a, b =>
    if x < a then (x, c) :: Memory.write rest a b
    else
      let tail := if x = a then rest else (x, c) :: rest
      if b = Config.blankByte then tail else (a, b) :: tail

/-- The canonical form. -/
def Memory.wf : List Host.Cell → Bool
  | [] => true
  | (a, b) :: rest => b != Config.blankByte && rest.all (fun c => decide (a < c.1)) && Memory.wf rest

/-- The word at a multiple of 4 (00_scope.md, section 5). -/
def Memory.readWord (m : List Host.Cell) (a : Nat) : Word :=
  be32 (Memory.read m a) (Memory.read m (a + 1)) (Memory.read m (a + 2)) (Memory.read m (a + 3))

/-- The store after one word of a write burst: its unmasked bytes are written, a masked byte is not (R1). -/
def Memory.writeWord (m : List Host.Cell) (a : Nat) (w : WriteWord) : List Host.Cell :=
  [0, 1, 2, 3].foldl (fun m i => if w.masked i then m else Memory.write m (a + i) (byteOf w.data i)) m

/-- The store after consecutive words from an address upward (R1). -/
def Memory.writeWords : List Host.Cell → Nat → List WriteWord → List Host.Cell
  | m, _, [] => m
  | m, a, w :: rest => Memory.writeWords (Memory.writeWord m a w) (a + 4) rest

/-- `n` consecutive words from an address upward. -/
def Memory.readWords (m : List Host.Cell) : Nat → Nat → List Word
  | _, 0 => []
  | a, n + 1 => Memory.readWord m a :: Memory.readWords m (a + 4) n

/-- The store with the listed bytes changed, as the store devices come up after an outage (R157, R158). -/
def Memory.change (m : List Host.Cell) (cs : List (BitVec 26 × Byte)) : List Host.Cell :=
  cs.foldl (fun m c => Memory.write m c.1.toNat c.2) m

/-- A word of a house write: no byte masked (R124, R146). -/
def houseWord (d : Word) : WriteWord := { data := d, mask := 0 }

end Sys2Proof.Machine
end

