-- ==== Sys2Proof/Machine/Operands.lean ====
section
/-! DEFINITION. The operands of commands: PIN fields, clamped values, and the ranges of bytes that must not overlap. -/

namespace Sys2Proof.Machine

/-- A PIN field is well formed: its length is 4 to 8 and each of its first `length` digits is 0 to 9 (R85). -/
def pinWellFormed (p : PinField) : Bool :=
  decide (4 ≤ p.length.toNat) && decide (p.length.toNat ≤ 8) &&
    (p.places.take p.length.toNat).all (fun d => decide (d.toNat ≤ 9))

/-- The digits of a PIN field: digit places beyond the length are not read (R85). -/
def pinDigits (p : PinField) : List Byte := p.places.take p.length.toNat

/-- A range of the store: its first byte and its size in bytes. -/
abbrev Extent := Nat × Nat

/-- Two ranges share a byte. -/
def overlaps (a b : Extent) : Bool := decide (a.1 < b.1 + b.2) && decide (b.1 < a.1 + a.2)

/-- A range shares a byte with one of a list. -/
def overlapsAny (a : Extent) (bs : List Extent) : Bool := bs.any (overlaps a)

/-- The anchor block, bytes 0 to 63 (section 1.3). -/
def anchorExtent : Extent := (0, 64)

/-- A ring of `n` slots of `size` bytes (00_scope.md, section 5). -/
def ringExtent (base n size : Nat) : Extent := (base, n * size)

/-- A lane ring (R17). -/
def Binding.extent (b : Binding) : Extent := ringExtent b.base b.slots 128

/-- The bytes of a ring in force; a ring that is not OPEN has none (R10, R17, R122). -/
def Ring.extents : Ring → List Extent
  | .inForce base slots _ => [ringExtent base slots 32]
  | _ => []

/-- The rings of the bound lanes. -/
def laneExtents (lanes : Four Lane) : List Extent :=
  [lanes.v0, lanes.v1, lanes.v2, lanes.v3].filterMap (fun l => l.binding.map Binding.extent)

/-- The current and the staged log region, where they exist (R10, R17, R122). -/
def logExtents (c : ChargeUnit) : List Extent :=
  (c.current.map (fun r => ringExtent r.base r.slots 32)).toList ++
    (c.staged.map (fun r => ringExtent r.base r.slots 32)).toList

/-- A TITLE notice's rating: values above 7 read as 7 (R37). -/
def readRating (b : Byte) : Nat := min b.toNat 7

/-- A TITLE notice's preview seconds: values above 900 read as 900 (R37). -/
def readPreview (h : BitVec 16) : Nat := min h.toNat 900

/-- A TITLE notice's rental hours: 0 reads as 24, values above 72 as 72 (R37). -/
def readHours (b : Byte) : Nat := if b = 0 then 24 else min b.toNat 72

/-- Credit limits are lowered to 1,000,000 (R118, R133). -/
def clampCredit (w : Word) : Nat := min w.toNat 1000000

/-- Discounts are lowered to 90 (R133). -/
def clampDiscount (b : Byte) : Nat := min b.toNat 90

/-- Lift minutes are raised to 1 and lowered to 240 (R131). -/
def clampMinutes (h : BitVec 16) : Nat := max 1 (min h.toNat 240)

end Sys2Proof.Machine
end

