-- ==== Sys2Proof/Machine/Ops.lean ====
section
/-! DEFINITION. The shared operations over the state: lanes and slots by number, the pending queue, the rings' fullness, the
attention line, and the values that one block computes for another (the ceilings, the spent amount). -/

namespace Sys2Proof.Machine

/-! ## Lanes and slots by number -/

/-- The value of number `i`. -/
def Four.get {α : Type} (f : Four α) (i : Fin 4) : α :=
  match i with
  | 0 => f.v0
  | 1 => f.v1
  | 2 => f.v2
  | 3 => f.v3

/-- The values with that of number `i` replaced. -/
def Four.set {α : Type} (f : Four α) (i : Fin 4) (a : α) : Four α :=
  match i with
  | 0 => { f with v0 := a }
  | 1 => { f with v1 := a }
  | 2 => { f with v2 := a }
  | 3 => { f with v3 := a }

/-- The four numbers, lowest first. -/
def four : List (Fin 4) := [0, 1, 2, 3]

/-- The state with lane `n` replaced. -/
def State.setLane (s : State) (n : Fin 4) (l : Lane) : State := { s with lanes := s.lanes.set n l }

/-- The state with service slot `i` replaced. -/
def State.setSlot (s : State) (i : Fin 4) (v : Option ServiceSlot) : State := { s with slots := s.slots.set i v }

/-- The service of lane `n`'s binding. -/
def State.laneService (s : State) (n : Fin 4) : Option Byte := (s.lanes.get n).binding.map Binding.service

/-- The lane has the role MAIN. -/
def State.laneIsMain (s : State) (n : Fin 4) : Bool :=
  match (s.lanes.get n).binding with
  | some b => b.role == .main
  | none => false

/-- The number of the service slot in use that holds a service (R47: no two hold the same). -/
def State.slotIndex (s : State) (service : Byte) : Option (Fin 4) :=
  four.find? (fun i => match s.slots.get i with
    | some v => v.service == service
    | none => false)

/-- A service slot just taken for a service (R46). -/
def ServiceSlot.fresh (service : Byte) : ServiceSlot :=
  { service := service, refs := 1, title := 0, rating := 0, pay := false
    current := ⟨0, 0, 0, false⟩, previous := ⟨0, 0, 0, false⟩, epoch := 0 }

/-- The service slot of a service. A bound lane's service always has one (R47); the contents of a fresh slot stand in where
none is in use. -/
def State.slotOf (s : State) (service : Byte) : ServiceSlot :=
  match s.slotIndex service with
  | some i => (s.slots.get i).getD (ServiceSlot.fresh service)
  | none => ServiceSlot.fresh service

/-- The free directory entries: 2,048 less the slots of the bound lanes (R20). -/
def State.freeEntries (s : State) : Nat :=
  2048 - (four.map (fun n => match (s.lanes.get n).binding with
    | some b => b.slots
    | none => 0)).sum

/-! ## Working -/

/-- The main supply is good: supply state RUN. -/
def State.inRun (s : State) : Bool :=
  match s.supply with
  | .run _ => true
  | _ => false

/-- The part works: it is in RUN and the reset line does not hold it (R6, R154, R159). -/
def State.working (s : State) : Bool := s.inRun && !s.resetLine

/-! ## The pending queue (R145) -/

/-- A report is handed to the report writer. One handed while the queue holds 16 is dropped, which sets the overflow mark
(R145). -/
def State.hand (s : State) (body : ReportBody) : State :=
  if s.reports.length < 16 then { s with reports := s.reports ++ [⟨body, false⟩] } else { s with overflow := true }

/-- An event is handed to the report writer (R145). -/
def State.raiseEvent (s : State) (e : Event) : State := s.hand (.event e)

/-- A report is placed at the head of the queue; with 16 there, the report at the tail makes room and is dropped (R145). -/
def State.placeFirst (s : State) (r : Report) : State :=
  if s.reports.length < 16 then { s with reports := r :: s.reports }
  else { s with reports := r :: s.reports.dropLast, overflow := true }

/-! ## Rings -/

/-- The report ring is OPEN and full: report head + 1 equals the latched report tail, modulo the slot count (R142, R146). -/
def State.reportRingFull (s : State) : Bool :=
  match s.reportRing with
  | .inForce _ n h => (h + 1) % n == s.anchor.reportTail.toNat % n
  | _ => false

/-- The condition under which the attention line stands (R151). -/
def State.attentionDue (s : State) : Bool :=
  match s.reportRing with
  | .inForce _ n h => h != s.anchor.reportTail.toNat % n
  | _ => false

/-- The attention line follows its condition, at the events that R151 names. -/
def State.refreshAttention (s : State) : State := { s with attention := s.attentionDue }

/-- A head advances by 1, modulo the slot count (R143, R146). -/
def Ring.advance : Ring → Ring
  | .inForce base n h => .inForce base n ((h + 1) % n)
  | r => r

/-! ## Values given to other blocks -/

/-- The entry of a title in the title table. -/
def State.title? (s : State) (t : BitVec 16) : Option TitleEntry := s.titles.find? (fun e => e.number == t)

/-- The title table with the entry of a title replaced by `f` of it; its place in the recency order stays. -/
def State.updateTitle (s : State) (t : BitVec 16) (f : TitleEntry → TitleEntry) : State :=
  { s with titles := s.titles.map (fun e => if e.number == t then f e else e) }

/-- A lift is active while its remainder is above 0 (R84). -/
def State.liftActive (s : State) : Bool := decide (0 < s.lock.lift)

/-- The unlifted ceiling (R84). -/
def State.unliftedCeiling (s : State) : Nat :=
  match s.stay.state with
  | .occupied => s.stay.ceiling
  | _ => s.tariff.houseCeiling

/-- The effective ceiling (R84). -/
def State.effectiveCeiling (s : State) : Nat :=
  match s.stay.state with
  | .occupied => if s.liftActive then s.tariff.siteClamp else s.stay.ceiling
  | _ => s.tariff.houseCeiling

/-- The spent amount S: net total + tax total (R111). -/
def State.spent (s : State) : Nat := s.charges.netTotal + s.charges.taxTotal

/-- The credit remaining: the credit limit less S (R111). -/
def State.creditRemaining (s : State) : Nat := s.stay.credit - s.spent

end Sys2Proof.Machine
end

