-- ==== Sys2Proof/Machine/Verdict.lean ====
section
/-! DEFINITION. The verdict unit (chapter 7) and pair selection (section 4.3). -/

namespace Sys2Proof.Machine

/-- The outcome of pair selection (R58). -/
inductive PairChoice where
  | nokey
  | stale
  | pair (p : WordPair)
  deriving DecidableEq, Repr

/-- Pair selection for an entry under the lane's service slot (R58): the first test that applies. -/
def choosePair (e : Entry) (v : ServiceSlot) : PairChoice :=
  if e.keyed = false then .nokey
  else if e.epoch = v.epoch ∧ v.current.valid = true then .pair v.current
  else if e.epoch = v.epoch - 1 ∧ v.previous.valid = true then .pair v.previous
  else .stale

/-- The key of a pair for a scramble state (R54). -/
def WordPair.key (p : WordPair) : Scramble → BitVec 64
  | .odd => p.odd
  | _ => p.even

/-- A title entry stands OFFERED or PREVIEW. -/
def TitleEntry.previewing (e : TitleEntry) : Bool :=
  match e.state with
  | .offered => true
  | .preview => true
  | _ => false

/-- A title entry stands EXHAUSTED or LAPSED. -/
def TitleEntry.shut (e : TitleEntry) : Bool :=
  match e.state with
  | .exhausted => true
  | .lapsed _ _ => true
  | _ => false

/-- A cell of a directory entry is an unpaid pay cell (R103). -/
def State.unpaid (s : State) (e : Entry) : Bool :=
  e.pay && (s.stay.state != .occupied ||
    match s.title? e.title with
    | none => true
    | some t => t.shut)

/-- The reason of a picture entry and what is presented for its payload (R102, R104). Pair selection is made for a burst that
carries the header word alone as well, so that its verdict byte can say NOKEY or STALE: R99 and R102 speak of every read burst,
R57 of one that touches payload words, and the reading is the model's (log entry 22). -/
def State.judgePicture (s : State) (service : Byte) (e : Entry) : Reason × Treatment :=
  if s.effectiveCeiling < e.rating then (.heldRating, .zeros)
  else if s.unpaid e then (.heldUnpaid, .zeros)
  else if e.scramble = .clear then (.shownClear, .asStored)
  else
    match choosePair e (s.slotOf service) with
    | .nokey => (.heldNokey, .zeros)
    | .stale => (.heldStale, .zeros)
    | .pair p => (.shownOpened, .descramble (p.key e.scramble) service e.continuity)

/-- A reason means shown (section 7.2). -/
def Reason.shown : Reason → Bool
  | .shownClear => true
  | .shownOpened => true
  | _ => false

/-- The judgement of a burst on an EMPTY slot (R100). -/
def Judgement.underrun : Judgement :=
  { reason := .heldUnderrun, flags := VerdictFlags.none, treatment := .zeros, firstRead := false, mark := none }

/-- The judgement of a read burst on a slot's entry; `payload` says that the burst carries a payload word (R27, R99 to R108). -/
def State.judge (s : State) (b : Binding) (e : Entry) (payload : Bool) : Judgement :=
  match e.state with
  | .empty => Judgement.underrun
  | st =>
    let reread := st == .read
    let first := payload && st == .written
    match e.kind with
    | .bad =>
      { reason := .heldNotcell
        flags := { VerdictFlags.none with lost := e.lostBefore, reread := reread }
        treatment := .zeros, firstRead := first, mark := none }
    | .control =>
      { reason := .shownClear
        flags := { VerdictFlags.none with lost := e.lostBefore, reread := reread, nopicture := true }
        treatment := .zeros, firstRead := first, mark := none }
    | .filler =>
      { reason := .shownClear
        flags := { VerdictFlags.none with lost := e.lostBefore, reread := reread, nopicture := true }
        treatment := .zeros, firstRead := first, mark := none }
    | .picture =>
      let outcome := s.judgePicture b.service e
      let previewing := match s.title? e.title with
        | some t => t.previewing
        | none => false
      { reason := outcome.1
        flags :=
          { lost := e.lostBefore
            preview := outcome.1.shown && previewing
            lifted := outcome.1.shown && decide (s.unliftedCeiling < e.rating)
            nopicture := false
            reread := reread }
        treatment := outcome.2
        firstRead := first
        mark := if first && outcome.1.shown then some (e.title, b.role) else none }

/-- An entry of a slice just taken (R18). -/
def Entry.fresh : Entry :=
  { state := .empty, kind := .bad, scramble := .clear, epoch := 0, keyed := false, title := 0, rating := 0, pay := false
    continuity := 0, lostBefore := false }

/-- The entry of a slot of a lane. -/
def Lane.entry (l : Lane) (slot : Nat) : Entry := l.slice.getD slot Entry.fresh

/-- The slot of a lane ring that an address falls in (R18). -/
def Binding.slotAt (b : Binding) (addr : Nat) : Nat := (addr - b.base) / 128

/-- A read burst carries at least one payload word of its slot: it is not the header word alone (R27). -/
def MediaTxn.carriesPayload (t : MediaTxn) : Bool := !(t.addr % 128 == 0 && t.count == 1)

/-- The judgement made when a media transaction is granted the store port: one for a lane ring read whose binding stands,
none for any other (R99). -/
def State.judgement (s : State) (t : MediaTxn) : Option Judgement :=
  match t.dir, t.cls with
  | .read, .lane n =>
    match (s.lanes.get n).binding with
    | some b => if t.bound then some (s.judge b ((s.lanes.get n).entry (b.slotAt t.addr)) t.carriesPayload) else none
    | none => none
  | _, _ => none

/-- A seen mark is applied to the title table; one whose title is not there is discarded (R70). -/
def State.applyMark (s : State) (m : BitVec 16 × Role) : State :=
  s.updateTitle m.1 (fun e => match m.2 with
    | .main => { e with seenMain := true }
    | .mosaic => { e with seenMosaic := true })

/-- A payload word as a treatment presents it; `k` is its index in the cell (R54, R106). -/
def Treatment.present (t : Treatment) (k : Nat) (stored : Word) : Word :=
  match t with
  | .zeros => 0
  | .asStored => stored
  | .descramble key service continuity => descrambleWord key service continuity k stored

/-- The header word with the verdict byte in place of byte 3 (R106, R107). -/
def Judgement.header (j : Judgement) (stored : Word) : Word :=
  be32 (byteOf stored 0) (byteOf stored 1) (byteOf stored 2) (verdictByte j.reason j.flags)

end Sys2Proof.Machine
end

