-- ==== Sys2Proof/Machine/Arbiter.lean ====
section
/-! DEFINITION. The store arbiter: requests, grants, the hand-over of a freed port and withdrawals (section 1.5, R13, R14). -/

namespace Sys2Proof.Machine

/-- An agent's request waits. -/
def Requests.has (r : Requests) : Agent → Bool
  | .command => r.command
  | .report => r.report
  | .log => r.log

/-- The requests with an agent's set or cleared. -/
def Requests.put (r : Requests) (a : Agent) (v : Bool) : Requests :=
  match a with
  | .command => { r with command := v }
  | .report => { r with report := v }
  | .log => { r with log := v }

/-- Some house request waits. -/
def Requests.any (r : Requests) : Bool := r.command || r.report || r.log

/-- The media transaction waits for the store port. -/
def State.mediaWaits (s : State) : Bool :=
  match s.media with
  | some t => t.phase == .waiting
  | none => false

/-- The waiting agent that stands first in the rotation order (R13). -/
def State.firstWaiting (s : State) : Option Agent := s.rotation.find? s.requests.has

/-- The rotation order with an agent moved to its end (R13). -/
def toEnd (order : List Agent) (a : Agent) : List Agent := order.filter (fun x => x != a) ++ [a]

/-- The store address of an agent's access (R124, R142, R146). -/
def State.houseAddr (s : State) : Agent → Nat
  | .command =>
    match s.commandRing, s.fetch with
    | .inForce base _ _, some slot => base + slot * 32
    | _, _ => 0
  | .report =>
    match s.reportWrite with
    | some w => w.place
    | none => 0
  | .log =>
    match s.charges.write with
    | some w => w.place
    | none => 0

/-- The words an agent's access writes; a fetch writes none (R124, R142, R146). -/
def State.houseData (s : State) : Agent → List Word
  | .command => []
  | .report =>
    match s.reportWrite with
    | some w => reportWords w.report
    | none => []
  | .log =>
    match s.charges.write with
    | some w => chargeWords w.record
    | none => []

/-- The store port is granted to a house agent, which moves to the end of the rotation order (R13). -/
def State.grantHouse (s : State) (a : Agent) : State :=
  { s with
    port := .house a (s.houseAddr a) (s.houseData a) false
    requests := s.requests.put a false
    rotation := toEnd s.rotation a }

/-- The store port is granted to MEDIA: the transaction enters its data phase, and a lane ring read is judged (R13, R99). -/
def State.grantMedia (s : State) : State :=
  { s with
    port := .media
    media := s.media.map (fun t => { t with phase := .data, judged := s.judgement t }) }

/-- The store port frees, and the arbiter decides the next grant (R13). While the part does not work no grant is made
(R154, R159) and the port stays free. -/
def State.handOver (s : State) : State :=
  if s.working = false then { s with port := .free }
  else
    match s.mediaWaits, s.firstWaiting with
    | true, none => s.grantMedia
    | true, some a =>
      if s.waitCount < 4 then { s.grantMedia with waitCount := s.waitCount + 1 }
      else { s.grantHouse a with waitCount := 0 }
    | false, some a => { s.grantHouse a with waitCount := 0 }
    | false, none => { s with port := .free }

/-- A house agent raises its request: at a free port it is granted at once, else it waits (R13). -/
def State.request (s : State) (a : Agent) : State :=
  if s.port = .free ∧ s.working = true then s.grantHouse a else { s with requests := s.requests.put a true }

/-- The waiting media transaction asks for the store port: at a free port it is granted at once, else it waits (R13). -/
def State.requestMedia (s : State) : State := if s.port = .free ∧ s.working = true then s.grantMedia else s

/-- A waiting house request is withdrawn; when it was the last one waiting, the wait count returns to 0 (R13, R14). -/
def State.withdraw (s : State) (a : Agent) : State :=
  let left := s.requests.put a false
  { s with requests := left, waitCount := if left.any then s.waitCount else 0 }

end Sys2Proof.Machine
end

