-- ==== Sys2Proof/WellFormed.lean ====
section
/-! DEFINITION. Which commands are well formed: bursts that the burst store bus carries, word lists no longer than a burst,
and UNKNOWN records whose code is unassigned. -/

namespace Sys2Proof

/-- A burst is a transaction of the burst store bus: a multiple of 4, 1 to 16 words, inside one aligned 64-byte block
(00_scope.md, section 3). -/
def isBurst (addr : Word) (count : Nat) : Bool :=
  decide (addr.toNat % 4 = 0) && decide (1 ≤ count) && decide (addr.toNat % 64 + 4 * count ≤ 64)

/-- The address is below 2^26 (00_scope.md, section 3). -/
def inStore (addr : Word) : Bool := decide (addr.toNat < Config.storeSize)

/-- A command code is one of the codes of section 12.4. -/
def codeAssigned (code : Byte) : Bool := decide (1 ≤ code.toNat) && decide (code.toNat ≤ 0x11)

/-- The command can be given to the part. -/
def wellFormed : Instr → Bool
  | .mediaCommandPhase _ addr count => inStore addr && isBurst addr count
  | .mediaTransactionComplete words => decide (words.length ≤ 16)
  | .enterRetain passed => decide (passed.length ≤ 16)
  | .resetAssert passed => decide (passed.length ≤ 16)
  | .unknown _ code => !codeAssigned code
  | .mediaResume => true
  | .anchorWrite _ => true
  | .commandRingSlots _ => true
  | .reportRingSlots _ => true
  | .commandTail _ => true
  | .reportTail _ => true
  | .headerWrite _ => true
  | .payloadWrite _ => true
  | .laneReadWord => true
  | .commandFetchRequest => true
  | .siteKey _ _ => true
  | .tariff _ _ _ _ _ _ => true
  | .openStay _ _ _ _ _ _ => true
  | .closeStay _ => true
  | .stayQuery _ => true
  | .ackCharges _ _ => true
  | .logRegion _ _ _ => true
  | .setCredit _ _ => true
  | .buy _ _ => true
  | .bind _ _ _ _ _ _ => true
  | .unbind _ _ => true
  | .unlock _ _ => true
  | .relock _ => true
  | .setCeiling _ _ _ => true
  | .changePin _ _ _ => true
  | .queryTitle _ _ => true
  | .restart _ => true
  | .reportTake => true
  | .reportWriteComplete => true
  | .logWriteBegin => true
  | .logWriteComplete => true
  | .secondsTick => true
  | .previewEnd => true
  | .rentalLapsed => true
  | .liftExpired => true
  | .lockoutEnded => true
  | .supplyRecover => true
  | .supplyRelapse => true
  | .enterRun _ => true
  | .powerOn => true
  | .resetRelease => true
  | .supplySample _ => true
  | .houseAccessDiscarded => true
  | .retainedStoreDecay => true

end Sys2Proof
end

