-- ==== Sys2Proof/Machine/MemoryPath.lean ====
section
/-! DEFINITION. The memory path: classification, the words of a media transaction, the anchor block, and the opens of the
command and report rings (chapter 1). -/

namespace Sys2Proof.Machine

/-! ## The media transaction -/

/-- The lane whose ring an address falls in, if a bound one does (R2). -/
def State.laneAt (s : State) (addr : Nat) : Option (Fin 4) :=
  four.find? (fun n => match (s.lanes.get n).binding with
    | some b => decide (b.base ≤ addr) && decide (addr < b.base + b.slots * 128)
    | none => false)

/-- The class of an address (R2). -/
def State.classify (s : State) (addr : Nat) : MediaClass :=
  if addr < 64 then .anchor
  else
    match s.laneAt addr with
    | some n => .lane n
    | none => .plain

/-- A transaction whose command phase has just been taken (R1, R2). -/
def State.newTxn (s : State) (dir : Direction) (addr count : Nat) : MediaTxn :=
  { dir := dir, addr := addr, count := count, passed := 0, cls := s.classify addr, phase := .waiting
    bound := match s.classify addr with
      | .lane _ => true
      | _ => false
    judged := none }

/-- The transaction in flight is over, and the media port takes the command phase presented behind it, if there is one: the new
transaction is classified now and waits for the store port (R1, R2; log entry 24). -/
def State.nextMedia (s : State) : State :=
  { s with media := s.nextPhase.map (fun p => s.newTxn p.dir p.addr p.count), nextPhase := none }

/-- The address of the word that passes next. -/
def MediaTxn.nextAddr (t : MediaTxn) : Nat := t.addr + 4 * t.passed

/-- How many words are still to pass. -/
def MediaTxn.left (t : MediaTxn) : Nat := t.count - t.passed

/-- Each word of the transaction passes by a step of its own: those of a lane ring transaction, and the written words of an
anchor transaction. The words of the others pass with the step that ends or cuts the transaction (log entry 8). -/
def MediaTxn.wordByWord (t : MediaTxn) : Bool :=
  match t.cls, t.dir with
  | .lane _, _ => true
  | .anchor, .write => true
  | _, _ => false

/-- The transaction in its data phase whose next word can pass by a step of its own: the part works, MEDIA holds the store
port, the direction is `dir` and a word is still to pass. -/
def State.wordTxn (s : State) (dir : Direction) : Option MediaTxn :=
  match s.media with
  | some t =>
    if s.working = true ∧ s.port = .media ∧ t.phase = .data ∧ t.dir = dir ∧ t.passed < t.count then some t else none
  | none => none

/-- One word has passed. -/
def State.passWord (s : State) (t : MediaTxn) : State := { s with media := some { t with passed := t.passed + 1 } }

/-- A written word reaches the store unchanged (R1, R4, R7). -/
def State.storeWord (s : State) (addr : Nat) (w : WriteWord) : State :=
  { s with store := Memory.writeWord s.store addr w }

/-- A word of the anchor block as a read returns it: the part's own words from the part, the others from the store (R8). -/
def State.anchorWord (s : State) (addr : Nat) : Word :=
  if addr = 12 then BitVec.ofNat 32 s.commandRing.head
  else if addr = 44 then BitVec.ofNat 32 s.reportRing.head
  else if addr = 16 then partWord s
  else Memory.readWord s.store addr

/-- A word of a read that is not a lane ring's, as it is presented (R3, R8). -/
def State.readWord (s : State) (cls : MediaClass) (addr : Nat) : Word :=
  match cls with
  | .anchor => s.anchorWord addr
  | _ => Memory.readWord s.store addr

/-- Words of a transaction without a step for each word pass: written words reach the store, read words are presented
(R1, R3, R8). `n` read words pass; of `ws` all pass. -/
def State.passPlain (s : State) (t : MediaTxn) (ws : List WriteWord) (n : Nat) : State :=
  match t.dir with
  | .write =>
    { s with
      store := Memory.writeWords s.store t.nextAddr ws
      media := some { t with passed := t.passed + ws.length } }
  | .read =>
    { s with
      presented := s.presented ++ (List.range n).map (fun i => s.readWord t.cls (t.nextAddr + 4 * i))
      media := some { t with passed := t.passed + n } }

/-- The words that `words` says have passed when a burst of MEDIA is cut, for a transaction without a step for each word
(R158, R159); a cut transaction is held at its next word, and one with no word left is complete. -/
def State.cutMedia (s : State) (words : List WriteWord) : State :=
  match s.media with
  | none => s
  | some t =>
    let s1 :=
      if t.phase = .data ∧ t.wordByWord = false then s.passPlain t (words.take t.left) (min words.length t.left) else s
    { s1 with
      media := match s1.media with
        | some u => if u.phase = .data ∧ u.left = 0 then none else some { u with phase := .held }
        | none => none }

/-! ## The rings -/

/-- The latched words as a ring's geometry is valid by the seven conditions of R10; `other` is the other ring. -/
def State.geometryValid (s : State) (base slots : Word) (other : Ring) : Bool :=
  let b := base.toNat
  let n := slots.toNat
  let ext := ringExtent b n 32
  decide (b % 32 = 0) && decide (4 ≤ n) && decide (n ≤ 256) && decide (b + n * 32 ≤ Config.storeSize) && decide (64 ≤ b) &&
    !overlapsAny ext (laneExtents s.lanes) && !overlapsAny ext (logExtents s.charges) && !overlapsAny ext other.extents

/-- The ring an open leaves (R10). -/
def State.openedRing (s : State) (base slots : Word) (other : Ring) : Ring :=
  if s.geometryValid base slots other then .inForce base.toNat slots.toNat 0 else .badGeometry

/-- A COMMAND fetch in progress at an open of the command ring: one waiting is withdrawn, and one that holds the store port
becomes an orphan, whose record is to be discarded (R11). -/
def State.orphanFetch (s : State) : State :=
  if s.requests.command then { s.withdraw .command with fetch := none }
  else
    match s.port with
    | .house .command a d _ => { s with port := .house .command a d true }
    | _ => s

/-- The command ring is opened from its latched words (R10, R11). -/
def State.openCommandRing (s : State) : State :=
  let ring := s.openedRing s.anchor.commandBase s.anchor.commandSlots s.reportRing
  { s.orphanFetch with commandRing := ring }

/-- A report write in progress at an open of the report ring: one waiting is withdrawn and its report returns to the head of
the pending queue; one that holds the store port becomes an orphan, and its report counts as dropped (R11, R147). -/
def State.orphanReport (s : State) : State :=
  match s.reportWrite with
  | none => s
  | some w =>
    if s.requests.report then { (s.withdraw .report).placeFirst w.report with reportWrite := none }
    else
      match s.port with
      | .house .report a d false =>
        { s with port := .house .report a d true, reportWrite := some { w with ended := true }, overflow := true }
      | _ => s

/-- A report is a RESTARTED report. -/
def Report.isRestarted (r : Report) : Bool :=
  match r.body with
  | .event (.restarted _) => true
  | _ => false

/-- A report is a LIFT_ENDED (RESTART) report. -/
def Report.isLiftRestart (r : Report) : Bool := r.body == .event (.liftEnded .restart)

/-- A report of a kind is in the pending queue or being written (R149). -/
def State.underWay (s : State) (kind : Report → Bool) : Bool :=
  s.reports.any kind ||
    match s.reportWrite with
    | some w => !w.ended && kind w.report
    | none => false

/-- The reports that an open which leaves the report ring OPEN places: LIFT_ENDED (RESTART) for the lift mark, then RESTARTED
for the cause flags, each at the head of the pending queue (R149). -/
def State.placeRestartReports (s : State) : State :=
  let s1 := if s.liftMark && !s.underWay Report.isLiftRestart then s.placeFirst ⟨.event (.liftEnded .restart), false⟩ else s
  if s1.causes.any && !s1.underWay Report.isRestarted then s1.placeFirst ⟨.event (.restarted s1.causes), false⟩ else s1

/-- A ring is OPEN. -/
def Ring.isOpen : Ring → Bool
  | .inForce _ _ _ => true
  | _ => false

/-- The report ring is opened from its latched words (R10, R11, R149, R151). -/
def State.openReportRing (s : State) : State :=
  let ring := s.openedRing s.anchor.reportBase s.anchor.reportSlots s.commandRing
  let s1 := { s.orphanReport with reportRing := ring }
  let s2 := if ring.isOpen then s1.placeRestartReports else s1
  s2.refreshAttention

end Sys2Proof.Machine
end

