-- ==== Sys2Proof/Machine/Crc.lean ====
section
/-! DEFINITION. The two cyclic checks: the notice CRC (R36) and the retained store's check word (R157). -/

namespace Sys2Proof.Machine

/-- One input bit of the notice CRC (R36): the register's top bit is combined with the bit, the register is shifted toward
its top, and it is combined with 0x1021 when the combined bit was 1. -/
def crcStep (r : BitVec 16) (bit : Bool) : BitVec 16 :=
  if r.msb ^^ bit then (r <<< 1) ^^^ 0x1021#16 else r <<< 1

/-- The bits of a byte, most significant first. -/
def byteBits (b : Byte) : List Bool := [7, 6, 5, 4, 3, 2, 1, 0].map b.getLsbD

/-- The CRC of a notice's bytes, preset to 0xFFFF, with no bit order reversed and no final inversion (R36). -/
def noticeCrc (bs : List Byte) : BitVec 16 := (bs.flatMap byteBits).foldl crcStep 0xFFFF#16

/-- The check word's generator: the free polynomial with its x^0 term set, so that the check is cyclic (R157). -/
def checkGenerator : Word := Config.checkPolynomial ||| 1#32

/-- One input bit of a 32-bit cyclic check with generator `g`. -/
def checkStep (g : Word) (r : Word) (bit : Bool) : Word :=
  if r.msb ^^ bit then (r <<< 1) ^^^ g else r <<< 1

/-- The 32-bit cyclic check of a sequence of bits (R157). -/
def cyclicCheck (bits : List Bool) : Word := bits.foldl (checkStep checkGenerator) Config.checkPreset

end Sys2Proof.Machine
end

