-- ==== Sys2Proof/Machine/TitleTable.lean ====
section
/-! DEFINITION. The title table: registration, eviction, the refused list, recency, opening and clearing (chapter 5). -/

namespace Sys2Proof.Machine

/-- The terms of a title as a notice gives them, read by R37. -/
structure TitleTerms where
  number : BitVec 16
  rating : Nat
  price : Nat
  limit : Nat
  hours : Nat
  deriving DecidableEq, Repr

/-- A title is the current title of a service slot in use (R67). -/
def State.titleCurrent (s : State) (t : BitVec 16) : Bool :=
  four.any (fun i => match s.slots.get i with
    | some v => v.title == t
    | none => false)

/-- The starting state of a registered title (R66). -/
def startingState (stay : StayState) (limit : Nat) : TitleState :=
  if limit = 0 ∧ stay ≠ .vacant then .exhausted else .offered

/-- A new entry (R66). -/
def State.newEntry (s : State) (t : TitleTerms) : TitleEntry :=
  { number := t.number, rating := t.rating, price := t.price, limit := t.limit, hours := t.hours
    state := startingState s.stay.state t.limit, used := 0, seenMain := false, seenMosaic := false }

/-- An entry qualifies for eviction (R67). -/
def State.evictable (s : State) (e : TitleEntry) : Bool :=
  e.state == .offered && e.used == 0 && !s.titleCurrent e.number

/-- The entry to evict: the qualifying one standing least recent (R67). -/
def State.victim (s : State) : Option TitleEntry := s.titles.find? s.evictable

/-- A title is entered as the most recent one and leaves the refused list (R66). -/
def State.enter (s : State) (t : TitleTerms) : State :=
  { s with titles := s.titles ++ [s.newEntry t], refused := s.refused.filter (fun n => n != t.number) }

/-- A title leaves the table (R65, R67). -/
def State.removeTitle (s : State) (n : BitVec 16) : State := { s with titles := s.titles.filter (fun e => e.number != n) }

/-- A registration is refused: TITLE_TABLE_FULL is reported once for a title number in the refused list, which holds the last
16 of them (R68). -/
def State.refuse (s : State) (n : BitVec 16) : State :=
  if s.refused.contains n then s
  else
    let kept := if s.refused.length < 16 then s.refused else s.refused.drop 1
    { s with refused := kept ++ [n] }.raiseEvent (.titleTableFull n)

/-- A registration request for a title not in the table (R66, R67, R68). -/
def State.register (s : State) (t : TitleTerms) : State :=
  if s.titles.length < 32 then s.enter t
  else
    match s.victim with
    | some e => (s.removeTitle e.number).enter t
    | none => s.refuse t.number

/-- A title present in the table takes the most recent position (R39, R65). -/
def State.refreshTitle (s : State) (n : BitVec 16) : State :=
  { s with titles := s.titles.filter (fun e => e.number != n) ++ s.titles.filter (fun e => e.number == n) }

/-- When the stay opens, each OFFERED entry with preview limit 0 becomes EXHAUSTED (R69). -/
def exhaustZeroPreview (e : TitleEntry) : TitleEntry :=
  if e.state = .offered ∧ e.limit = 0 then { e with state := .exhausted } else e

/-- An entry's seen flags are cleared (R71). -/
def TitleEntry.unseen (e : TitleEntry) : TitleEntry := { e with seenMain := false, seenMosaic := false }

/-- The entries a restart keeps: those not OFFERED, in their order, with seen flags cleared (R81). -/
def keptTitles (es : List TitleEntry) : List TitleEntry :=
  (es.filter (fun e => e.state != .offered)).map TitleEntry.unseen

end Sys2Proof.Machine
end

