-- ==== Sys2Proof/Machine/Notices.lean ====
section
/-! DEFINITION. Notices and service slots: validation, TITLE and WORD notices, joining and leaving a slot (chapter 3). -/

namespace Sys2Proof.Machine

/-- A notice, read from the 124 payload bytes of a control cell (R34). -/
inductive Notice where
  | title (terms : TitleTerms)
  | word (number : BitVec 16) (evenHigh evenLow oddHigh oddLow : Word)
  deriving DecidableEq, Repr

/-- Byte `i` of a notice. -/
def noticeByte (p : List Byte) (i : Nat) : Byte := p.getD i 0

/-- The 16-bit field at byte `i` of a notice. -/
def noticeHalf (p : List Byte) (i : Nat) : BitVec 16 := be16 (noticeByte p i) (noticeByte p (i + 1))

/-- The 32-bit field at byte `i` of a notice. -/
def noticeWord (p : List Byte) (i : Nat) : Word :=
  be32 (noticeByte p i) (noticeByte p (i + 1)) (noticeByte p (i + 2)) (noticeByte p (i + 3))

/-- The body size of a notice kind, for a kind that is known (R35, section 12.2). -/
def bodySize (kind : Byte) : Option Nat := if kind = 1 then some 8 else if kind = 2 then some 18 else none

/-- A notice is valid: known kind, length at most 120 and that of the kind, and a CRC that agrees (R35). -/
def noticeValid (p : List Byte) : Bool :=
  let len := (noticeByte p 1).toNat
  decide (len ≤ 120) && (bodySize (noticeByte p 0) == some len) &&
    (noticeHalf p (2 + len) == noticeCrc (p.take (2 + len)))

/-- The terms of a TITLE notice, as the slot reads them (R37, section 12.2). -/
def titleTerms (p : List Byte) : TitleTerms :=
  { number := noticeHalf p 2
    rating := readRating (noticeByte p 4)
    price := (noticeHalf p 5).toNat
    limit := readPreview (noticeHalf p 7)
    hours := readHours (noticeByte p 9) }

/-- The notice in a control cell's payload; `none` when it fails validation and is discarded (R34, R35, section 12.2). -/
def parseNotice (p : List Byte) : Option Notice :=
  if noticeValid p = false then none
  else if noticeByte p 0 = 1 then some (.title (titleTerms p))
  else some (.word (noticeHalf p 2) (noticeWord p 4) (noticeWord p 8) (noticeWord p 12) (noticeWord p 16))

/-- The slot's rating and pay flag are set (R38). -/
def State.setSlotTerms (s : State) (i : Fin 4) (rating : Nat) (pay : Bool) : State :=
  s.setSlot i ((s.slots.get i).map (fun v => { v with rating := rating, pay := pay }))

/-- A valid TITLE notice handed to slot `i` (R38, R39, R40). -/
def State.titleNotice (s : State) (i : Fin 4) (t : TitleTerms) : State :=
  let s1 := s.setSlot i ((s.slots.get i).map (fun v => { v with title := t.number }))
  if t.number = 0 then s1.setSlotTerms i t.rating false
  else
    match s1.title? t.number with
    | some e => (s1.refreshTitle t.number).setSlotTerms i e.rating (decide (0 < e.price))
    | none => (s1.register t).setSlotTerms i t.rating (decide (0 < t.price))

/-- The unwrapped pair of a WORD notice (R43, R60). -/
def unwrapPair (siteKey : BitVec 64) (service : Byte) (w : BitVec 16) (eh el oh ol : Word) : WordPair :=
  { even := be64 (unwrapWord siteKey service w 0 eh) (unwrapWord siteKey service w 1 el)
    odd := be64 (unwrapWord siteKey service w 2 oh) (unwrapWord siteKey service w 3 ol)
    number := w
    valid := true }

/-- A slot after a valid WORD notice: unchanged by a repeat (R42), else the unwrapped pair is rotated in (R43, R44). -/
def ServiceSlot.word (v : ServiceSlot) (siteKey : BitVec 64) (w : BitVec 16) (eh el oh ol : Word) : ServiceSlot :=
  if v.current.valid = true ∧ v.current.number = w then v
  else
    { v with
      previous := v.current
      current := unwrapPair siteKey v.service w eh el oh ol
      epoch := v.epoch + 1 }

/-- A complete notice is handed to the service slot of a service (R31, R34). -/
def State.applyNotice (s : State) (service : Byte) (payload : List Byte) : State :=
  match s.slotIndex service, parseNotice payload with
  | some i, some (.title t) => s.titleNotice i t
  | some i, some (.word w eh el oh ol) =>
    s.setSlot i ((s.slots.get i).map (fun v => v.word s.siteKey w eh el oh ol))
  | _, _ => s

/-- The number of a slot not in use. Which one a newly bound service takes the manual leaves open, as it cannot be seen and has
no effect (R46); the lowest-numbered one is the model's choice (log entry 21). -/
def State.freeSlot (s : State) : Option (Fin 4) := four.find? (fun i => (s.slots.get i).isNone)

/-- A lane joins the slot of its service (R47). -/
def State.joinSlot (s : State) (service : Byte) : State :=
  match s.slotIndex service with
  | some i => s.setSlot i ((s.slots.get i).map (fun v => { v with refs := v.refs + 1 }))
  | none =>
    match s.freeSlot with
    | some i => s.setSlot i (some (ServiceSlot.fresh service))
    | none => s

/-- A lane leaves the slot of its service, which is cleared when no lane is left on it (R48). -/
def State.leaveSlot (s : State) (service : Byte) : State :=
  match s.slotIndex service with
  | some i =>
    s.setSlot i ((s.slots.get i).bind (fun v => if v.refs ≤ 1 then none else some { v with refs := v.refs - 1 }))
  | none => s

end Sys2Proof.Machine
end

