-- ==== Sys2Proof/Machine/Lanes.lean ====
section
/-! DEFINITION. The lane engines: headers, alignment, directory entries and notice assembly (chapter 2). -/

namespace Sys2Proof.Machine

/-- What a lane engine takes from a good sync (R16). -/
structure Header where
  kind : Kind
  scramble : Scramble
  continuity : BitVec 4
  deriving DecidableEq, Repr

/-- The cell kind in byte 2; the unassigned value is read as FILLER (R16, section 12.1). -/
def headerKind (b : Byte) : Kind :=
  match (b.extractLsb' 6 2).toNat with
  | 0 => .picture
  | 1 => .control
  | _ => .filler

/-- The scramble state in byte 2; the unassigned value is read as CLEAR (R16, section 12.1). -/
def headerScramble (b : Byte) : Scramble :=
  match (b.extractLsb' 4 2).toNat with
  | 1 => .even
  | 2 => .odd
  | _ => .clear

/-- A header write read by the lane engine: the fields of a good sync, or `none` for a bad sync (R16). -/
def readHeader (service : Byte) (w : WriteWord) : Option Header :=
  if w.masked 0 || w.masked 1 || w.masked 2 then none
  else if byteOf w.data 0 = 0xB5 ∧ byteOf w.data 1 = service then
    some
      { kind := headerKind (byteOf w.data 2)
        scramble := headerScramble (byteOf w.data 2)
        continuity := (byteOf w.data 2).extractLsb' 0 4 }
  else none

/-- An alignment move: the lane after it, and whether it went to LOCKED or to HUNT (R21, R22). -/
inductive Moved where
  | stays
  | locked
  | lost
  deriving DecidableEq, Repr

/-- A header write moves the alignment state (R21, R22). -/
def Lane.align (l : Lane) (good : Bool) : Lane × Moved :=
  match l.alignment, good with
  | .hunt, true =>
    if l.good + 1 = 2 then ({ l with alignment := .locked, good := 0, bad := 0 }, .locked)
    else ({ l with good := l.good + 1 }, .stays)
  | .hunt, false => ({ l with good := 0 }, .stays)
  | .locked, true => ({ l with bad := 0 }, .stays)
  | .locked, false =>
    if l.bad + 1 = 3 then ({ l with alignment := .hunt, good := 0, bad := 0 }, .lost)
    else ({ l with bad := l.bad + 1 }, .stays)

/-- An entry of kind BAD (R23). -/
def badEntry (lost : Bool) : Entry := { Entry.fresh with state := .written, lostBefore := lost }

/-- An entry formed normally (R23). -/
def normalEntry (v : ServiceSlot) (h : Header) (lost : Bool) : Entry :=
  { state := .written, kind := h.kind, scramble := h.scramble, epoch := v.epoch, keyed := v.current.valid, title := v.title
    rating := v.rating, pay := v.pay, continuity := h.continuity, lostBefore := lost }

/-- A continuity gap: the reference is present and the continuity is not one past it, modulo 16 (R25). -/
def continuityGap (reference : Option (BitVec 4)) (continuity : BitVec 4) : Bool :=
  match reference with
  | some r => continuity != r + 1
  | none => false

/-- The slot is found in overrun: the entry that stood in it is WRITTEN (R24). -/
def Entry.overrun (e : Entry) : Bool := e.state == .written

/-- An empty notice assembly for a slot (R29). -/
def Assembly.start (slot : Nat) : Assembly := { slot := slot, words := List.replicate 31 none }

/-- A lane after a header write to one of its slots, with the move its alignment made (R21 to R25, R29, R30). `v` is the
lane's service slot. -/
def Lane.header (l : Lane) (b : Binding) (v : ServiceSlot) (slot : Nat) (w : WriteWord) : Lane × Moved :=
  let torn := { l with assembly := none }
  let read := readHeader b.service w
  let moved := torn.align read.isSome
  let lost := (l.entry slot).overrun
  match read, l.alignment with
  | some h, .locked =>
    let e := normalEntry v h (lost || continuityGap l.reference h.continuity)
    ({ moved.1 with
        slice := l.slice.set slot e
        reference := some h.continuity
        assembly := if h.kind = .control then some (Assembly.start slot) else none }, moved.2)
  | _, _ => ({ moved.1 with slice := l.slice.set slot (badEntry lost) }, moved.2)

/-- The event an alignment move hands to the report writer (R21, R22). -/
def Moved.event (m : Moved) (n : Fin 4) (service : Byte) : Option Event :=
  match m with
  | .stays => none
  | .locked => some (.laneLocked n service)
  | .lost => some (.laneLost n service)

/-- An optional event is handed to the report writer. -/
def State.raiseEvent? (s : State) : Option Event → State
  | some e => s.raiseEvent e
  | none => s

/-- The lane engine takes a header word written at an address of lane `n`'s ring. One with all four bytes masked is no header
write (R16, R30). -/
def State.takeHeader (s : State) (n : Fin 4) (addr : Nat) (w : WriteWord) : State :=
  match (s.lanes.get n).binding with
  | none => s
  | some b =>
    if w.allMasked then s
    else
      let moved := (s.lanes.get n).header b (s.slotOf b.service) (b.slotAt addr) w
      (s.setLane n moved.1).raiseEvent? (moved.2.event n b.service)

/-- The assembly with a payload word placed (R29). -/
def Assembly.place (a : Assembly) (k : Nat) (w : Word) : Assembly := { a with words := a.words.set k (some w) }

/-- All the words of a list of marked words, when every one has arrived. -/
def allArrived : List (Option Word) → Option (List Word)
  | [] => some []
  | some w :: rest => (allArrived rest).map (w :: ·)
  | none :: _ => none

/-- The words of a complete assembly (R31). -/
def Assembly.complete? (a : Assembly) : Option (List Word) := allArrived a.words

/-- The payload word index of an address in a cell (section 12.1). -/
def payloadIndex (addr : Nat) : Nat := addr % 128 / 4 - 1

/-- The lane engine takes a payload word written at an address of lane `n`'s ring: an unmasked one fills the assembly open for
its slot, and the last one completes the notice, which goes to the service slot (R29, R31). -/
def State.takePayload (s : State) (n : Fin 4) (addr : Nat) (w : WriteWord) : State :=
  match (s.lanes.get n).binding, (s.lanes.get n).assembly with
  | some b, some a =>
    if a.slot = b.slotAt addr ∧ w.whole = true then
      let filled := a.place (payloadIndex addr) w.data
      match filled.complete? with
      | some ws => (s.setLane n { s.lanes.get n with assembly := none }).applyNotice b.service (ofWords ws)
      | none => s.setLane n { s.lanes.get n with assembly := some filled }
    else s
  | _, _ => s

/-- The entry of a slot of lane `n` becomes READ (R27). -/
def State.markRead (s : State) (n : Fin 4) (slot : Nat) : State :=
  let l := s.lanes.get n
  s.setLane n { l with slice := l.slice.set slot { l.entry slot with state := .read } }

end Sys2Proof.Machine
end

