-- ==== Sys2Proof/Machine/Charges.lean ====
section
/-! DEFINITION. The charge unit: the arithmetic of a charge, the commit, the charge list, acknowledgement and the log regions
(chapter 8). -/

namespace Sys2Proof.Machine

/-! ## Arithmetic (R112) -/

/-- The net amount of a price under a discount (R112). -/
def chargeNet (price discount : Nat) : Nat := (price * (100 - discount) + 50) / 100

/-- The tax on a net amount at a tax rate in basis points (R112). -/
def chargeTax (net taxRate : Nat) : Nat := (net * taxRate + 5000) / 10000

/-- The net amount of a title's price in the stay (R112). -/
def State.netOf (s : State) (e : TitleEntry) : Nat := chargeNet e.price s.stay.discount

/-- The tax on a title's price in the stay (R112). -/
def State.taxOf (s : State) (e : TitleEntry) : Nat := chargeTax (s.netOf e) s.tariff.taxRate

/-- The total of a title's charge (R112). -/
def State.totalOf (s : State) (e : TitleEntry) : Nat := s.netOf e + s.taxOf e

/-! ## The commit (R113 to R115) -/

/-- A record is a PURCHASE record. -/
def ChargeItem.isPurchase (i : ChargeItem) : Bool :=
  match i.record.body with
  | .purchase _ _ _ _ _ => true
  | .close _ _ _ => false

/-- The PURCHASE records in the list. -/
def ChargeUnit.purchases (c : ChargeUnit) : Nat := (c.list.filter ChargeItem.isPurchase).length

/-- A title entry stands PURCHASED. -/
def TitleEntry.bought (e : TitleEntry) : Bool :=
  match e.state with
  | .purchased _ _ => true
  | _ => false

/-- The checks of a commit on a title's entry, from check 3 on (R113). -/
def State.commitEntryCheck (s : State) (e : TitleEntry) : Option ResultCode :=
  if e.bought then some .already
  else if e.price = 0 then some .free
  else if s.effectiveCeiling < e.rating then some .rating
  else if s.stay.credit < s.spent + s.totalOf e then some .credit
  else if 15 ≤ s.charges.purchases ∨ 2 ^ 32 - 2 ≤ s.charges.lastIssued then some .logFull
  else none

/-- The entry a commit of a title is made on, or the result of the first check that fails (R113). -/
def State.commitCheck (s : State) (t : BitVec 16) : Except ResultCode TitleEntry :=
  match s.stay.state with
  | .vacant => .error .noStay
  | .closing => .error .closing
  | .occupied =>
    match s.title? t with
    | none => .error .noTitle
    | some e =>
      match s.commitEntryCheck e with
      | some r => .error r
      | none => .ok e

/-- The lane's service slot holds a title as its current title. -/
def State.laneShows (s : State) (n : Fin 4) (t : BitVec 16) : Bool :=
  match s.laneService n with
  | some v => (s.slotOf v).title == t
  | none => false

/-- The service a record that is not discreet carries: that of the MAIN lane showing the title, else of the lowest-numbered
lane showing it, else 0 (R115). -/
def State.carriedService (s : State) (t : BitVec 16) : Byte :=
  let shows := four.filter (fun n => s.laneShows n t)
  match shows.find? s.laneIsMain with
  | some n => (s.laneService n).getD 0
  | none =>
    match shows with
    | n :: _ => (s.laneService n).getD 0
    | [] => 0

/-- What the PURCHASE record of a title names (R115). -/
def State.purchaseBody (s : State) (e : TitleEntry) : ChargeBody :=
  if s.tariff.discreetClass ≤ e.rating then .purchase true 0 0 (s.netOf e) (s.taxOf e)
  else .purchase false e.number (s.carriedService e.number) (s.netOf e) (s.taxOf e)

/-- The PURCHASE record of a commit at a stay second (R114). -/
def State.purchaseRecord (s : State) (e : TitleEntry) (second : Nat) : ChargeRecord :=
  { sequence := s.charges.lastIssued + 1
    stayNumber := s.stay.number
    second := second
    spent := s.spent + s.totalOf e
    body := s.purchaseBody e }

/-- A record is issued: it takes the next sequence number and joins the tail of the list unwritten (R114, R121). -/
def ChargeUnit.issue (c : ChargeUnit) (r : ChargeRecord) : ChargeUnit :=
  { c with lastIssued := c.lastIssued + 1, list := c.list ++ [⟨r, false⟩] }

/-- The effects of a commit that passes its checks (R78, R114). -/
def State.makeCommit (s : State) (e : TitleEntry) (second : Nat) : State :=
  let issued := s.charges.issue (s.purchaseRecord e second)
  { s with
    charges :=
      { issued with
        netTotal := issued.netTotal + s.netOf e
        taxTotal := issued.taxTotal + s.taxOf e
        count := issued.count + 1 } }.updateTitle e.number
    (fun x => { x with state := .purchased second (s.charges.lastIssued + 1) })

/-! ## The list and its acknowledgement (R119, R120) -/

/-- Acknowledged after ACK_CHARGES of a sequence number (R120). -/
def ChargeUnit.ackTo (c : ChargeUnit) (sequence : Nat) : Nat := min c.lastIssued (max c.acknowledged sequence)

/-- The charge unit after its records up to a sequence number have left the list; a LOG write of one of them goes on, no
longer listed (R120, R124). -/
def ChargeUnit.release (c : ChargeUnit) (ack : Nat) : ChargeUnit :=
  { c with
    acknowledged := ack
    list := c.list.filter (fun i => decide (ack < i.record.sequence))
    write := c.write.map (fun w => if w.record.sequence ≤ ack then { w with listed := false } else w) }

/-- The CLOSE record (R121). -/
def State.closeRecord (s : State) : ChargeRecord :=
  { sequence := s.charges.lastIssued + 1
    stayNumber := s.stay.number
    second := s.stay.seconds
    spent := s.spent
    body := .close s.charges.count s.charges.netTotal s.charges.taxTotal }

/-- The return to VACANT (R80, R96, R111, R136). -/
def State.becomeVacant (s : State) : State :=
  { s with
    stay := { s.stay with state := .vacant, ceiling := 0, credit := 0, discount := 0 }
    lock := { s.lock with pin := none, tries := 0, lockout := 0 }
    charges := { s.charges with lastIssued := 0, acknowledged := 0, list := [] }
    titles := []
    refused := [] }.raiseEvent (.stayVacant s.stay.number)

/-! ## Log regions and LOG writes (R122 to R125) -/

/-- The oldest record of the list with its written flag clear (R124). -/
def ChargeUnit.nextUnwritten (c : ChargeUnit) : Option ChargeRecord :=
  (c.list.find? (fun i => !i.written)).map ChargeItem.record

/-- The records with the written flag clear (R125). -/
def ChargeUnit.waiting (c : ChargeUnit) : Nat := (c.list.filter (fun i => !i.written)).length

/-- The record of a sequence number has its written flag set (R124). -/
def markWritten (list : List ChargeItem) (sequence : Nat) : List ChargeItem :=
  list.map (fun i => if i.record.sequence = sequence then { i with written := true } else i)

/-- A staged region made current (R122, R125). -/
def StagedRegion.toCurrent (r : StagedRegion) : LogRegion := ⟨r.base, r.slots, 0⟩

/-- The write index has advanced in the current region; a full region is given up, the staged one is taken if there is one,
and LOG_REGION_NEEDED is reported (R124, R125). -/
def State.advanceRegion (s : State) : State :=
  match s.charges.current with
  | none => s
  | some r =>
    if r.index + 1 = r.slots then
      { s with
        charges := { s.charges with current := s.charges.staged.map StagedRegion.toCurrent, staged := none } }.raiseEvent
        (.logRegionNeeded (if s.charges.staged.isSome then .stagedTaken else .noneLeft) s.charges.waiting)
    else { s with charges := { s.charges with current := some { r with index := r.index + 1 } } }

end Sys2Proof.Machine
end

