-- ==== Sys2Proof/Machine/Meter.lean ====
section
/-! DEFINITION. The seconds tick: stay seconds, the viewing meter, the lift and the lockout (R71 to R75, R88, R91, R138, R139),
and how a tick in progress is completed. -/

namespace Sys2Proof.Machine

/-! ## What the meter does with one entry -/

/-- A seen flag is set. -/
def TitleEntry.seen (e : TitleEntry) : Bool := e.seenMain || e.seenMosaic

/-- The entry is counted at a tick: OFFERED or PREVIEW, seen, in an OCCUPIED stay (R71, R72). -/
def State.counts (s : State) (e : TitleEntry) : Bool := s.stay.state == .occupied && e.previewing && e.seen

/-- A counted entry's preview is at its end (R72). -/
def TitleEntry.atEnd (e : TitleEntry) : Bool := e.used + 1 == e.limit

/-- A rental is due at the stay's second (R75). -/
def State.rentalDue (s : State) (e : TitleEntry) : Bool :=
  match e.state with
  | .purchased second _ => s.stay.state != .vacant && decide (second + e.hours * 3600 ≤ s.stay.seconds)
  | _ => false

/-- The meter's action on the entry is a step of its own: PREVIEW_END or RENTAL_LAPSED. -/
def State.meterStops (s : State) (e : TitleEntry) : Bool :=
  (s.counts e && e.atEnd) || (s.rentalDue e && !e.seenMain)

/-- The role that PREVIEW_STARTED carries (R72). -/
def TitleEntry.seenRole (e : TitleEntry) : Role := if e.seenMain then .main else .mosaic

/-- One preview second is counted, steps 1 and 2 of R72. -/
def State.countPreview (s : State) (e : TitleEntry) : State :=
  let counted := s.updateTitle e.number (fun x => { x with used := x.used + 1, state := .preview })
  if e.state = .offered then counted.raiseEvent (.previewStarted e.number e.seenRole) else counted

/-- The entry's seen flags are cleared after the meter's action (R71). -/
def State.clearSeen (s : State) (t : BitVec 16) : State := s.updateTitle t TitleEntry.unseen

/-- The meter's action on an entry that is no step of its own (R71, R72, R75). -/
def State.meterEntry (s : State) (e : TitleEntry) : State :=
  (if s.counts e then s.countPreview e else s).clearSeen e.number

/-- The meter acts on the listed titles in order, up to one whose action is a step of its own, where it stands (R71). -/
def State.meterRun : List (BitVec 16) → State → State
  | [], s => { s with tick := { s.tick with meter := [] } }
  | t :: rest, s =>
    match s.title? t with
    | none => State.meterRun rest s
    | some e => if s.meterStops e then { s with tick := { s.tick with meter := t :: rest } } else State.meterRun rest (s.meterEntry e)

/-- The meter goes on with its outstanding titles, up to one whose action is a step of its own. A meter that stands at one stays
there. -/
def State.runMeter (s : State) : State := State.meterRun s.tick.meter s

/-- A preview's end without a purchase: the entry becomes EXHAUSTED (R73, R74). -/
def State.exhaust (s : State) (t : BitVec 16) (r : PreviewReason) : State :=
  (s.updateTitle t (fun x => { x with state := .exhausted })).raiseEvent (.previewEnded t r)

/-- The end of a counted entry's preview, step 3 of R72: a commit when it was seen on the main picture (R73), else EXHAUSTED
(R74). -/
def State.endPreview (s : State) (e : TitleEntry) : State :=
  if e.seenMain then
    match s.commitCheck e.number with
    | .ok x => (s.makeCommit x s.stay.seconds).raiseEvent (.purchased e.number (s.charges.lastIssued + 1))
    | .error r => s.exhaust e.number (.failed r)
  else s.exhaust e.number .mosaic

/-- The rental of an entry lapses (R75). -/
def State.lapse (s : State) (e : TitleEntry) : State :=
  (s.updateTitle e.number (fun x => match x.state with
    | .purchased second sequence => { x with state := .lapsed second sequence }
    | _ => x)).raiseEvent (.rentalLapsed e.number)

/-! ## The steps of a tick -/

/-- The entry where the meter stands, when its action `acts` there: the titles after it and the entry. -/
def State.meterAt (s : State) (acts : State → TitleEntry → Bool) : Option (List (BitVec 16) × TitleEntry) :=
  match s.tick.meter with
  | [] => none
  | t :: rest =>
    match s.title? t with
    | none => none
    | some e => if acts s e then some (rest, e) else none

/-- The meter goes on to the entry where it stands, does `act` to it when `acts` there, and goes on. -/
def State.meterStep (s : State) (acts : State → TitleEntry → Bool) (act : State → TitleEntry → State) : Option State :=
  let r := s.runMeter
  (r.meterAt acts).map (fun x => State.meterRun x.1 ((act r x.2).clearSeen x.2.number))

/-- PREVIEW_END at the entry where the meter stands; the meter then goes on (R72, R73, R74). -/
def State.previewEndStep (s : State) : Option State :=
  s.meterStep (fun r e => r.counts e && e.atEnd) (fun r e => (r.countPreview e).endPreview e)

/-- RENTAL_LAPSED at the entry where the meter stands; the meter then goes on (R75). -/
def State.rentalLapsedStep (s : State) : Option State :=
  s.meterStep (fun r e => r.rentalDue e && !e.seenMain) State.lapse

/-- LIFT_EXPIRED: the lift remainder reaches 0 and the lift ends by expiry (R91, R92). -/
def State.liftExpiredStep (s : State) : Option State :=
  if s.tick.lift then
    some ({ s with lock := { s.lock with lift := 0 }, tick := { s.tick with lift := false } }.raiseEvent (.liftEnded .expired))
  else none

/-- LOCKOUT_ENDED: the lockout remainder reaches 0 and the lockout ends (R88). -/
def State.lockoutEndedStep (s : State) : Option State :=
  if s.tick.lockout then
    some ({ s with lock := { s.lock with lockout := 0 }, tick := { s.tick with lockout := false } }.raiseEvent .lockoutEnded)
  else none

/-- A remainder counted down at a tick, but for the count that brings it to 0, which is a step of its own (R88, R91). -/
def countDown (n : Nat) : Nat := if n = 1 then 1 else n - 1

/-- Stay seconds at a tick (R139). -/
def Stay.tick (y : Stay) : Stay :=
  if y.state = .vacant then y else { y with seconds := min (y.seconds + 1) (2 ^ 32 - 1) }

/-- The beginning of a seconds tick: the tick count begins again, stay seconds advance, the lift and the lockout count down, and
the meter has every entry before it, from the most recent to the least (R71, R88, R91, R138, R139). -/
def State.beginTick (s : State) : State :=
  { s with
    tickCount := 0
    stay := s.stay.tick
    lock := { s.lock with lift := countDown s.lock.lift, lockout := countDown s.lock.lockout }
    tick :=
      { meter := s.titles.reverse.map TitleEntry.number
        lift := s.lock.lift == 1
        lockout := s.lock.lockout == 1 } }

/-- The lock unit has a report to hand at the tick in progress. -/
def TickWork.lockReports (w : TickWork) : Bool := w.lift || w.lockout

/-- A seconds tick: its beginning, then the meter's work up to a step of its own. Where the lock unit has a report to hand at the
tick too, either may hand first (R145), and a free value says whether the meter begins at once or is left outstanding (log
entry 6). -/
def State.secondsTickStep (s : State) : State :=
  let b := s.beginTick
  if b.tick.lockReports then
    let drawn := { b with freeDraws := b.freeDraws + 1 }
    if Config.meterFirst s.freeDraws then drawn.runMeter else drawn
  else b.runMeter

/-! ## A tick is whole -/

/-- The meter finishes its outstanding entries. Each round acts on at least one of them, so as many rounds as there are
outstanding titles are enough. -/
def State.finishMeter : Nat → State → State
  | 0, s => { s with tick := { s.tick with meter := [] } }
  | n + 1, s =>
    match s.previewEndStep with
    | some t => State.finishMeter n t
    | none =>
      match s.rentalLapsedStep with
      | some t => State.finishMeter n t
      | none => { s with tick := { s.tick with meter := [] } }

/-- The meter's outstanding work. -/
def State.settleMeter (s : State) : State := s.runMeter.finishMeter s.tick.meter.length

/-- The lift's outstanding work. -/
def State.settleLift (s : State) : State := s.liftExpiredStep.getD s

/-- The lockout's outstanding work. -/
def State.settleLockout (s : State) : State := s.lockoutEndedStep.getD s

/-- The owners' outstanding work in an order. -/
def State.settleIn (s : State) : TickOrder → State
  | .meterLiftLockout => s.settleMeter.settleLift.settleLockout
  | .meterLockoutLift => s.settleMeter.settleLockout.settleLift
  | .liftMeterLockout => s.settleLift.settleMeter.settleLockout
  | .liftLockoutMeter => s.settleLift.settleLockout.settleMeter
  | .lockoutMeterLift => s.settleLockout.settleMeter.settleLift
  | .lockoutLiftMeter => s.settleLockout.settleLift.settleMeter

/-- A tick in progress is completed before any other event is taken, since a tick is whole (R145, R157): its outstanding work
is done, in an order that the manual leaves open and that is a free value (R138; log entry 6). -/
def State.settle (s : State) : State :=
  if s.tick = TickWork.none then s
  else { s with freeDraws := s.freeDraws + 1 }.settleIn (Config.tickOrder s.freeDraws)

end Sys2Proof.Machine
end

