-- ==== Sys2Proof/Machine/RetainedStore.lean ====
section
/-! DEFINITION. The retained store (section 11.3): its contents, the check word over them, and contents that the store is left
with by a decay. -/

namespace Sys2Proof.Machine

/-! ## The contents (R157) -/

/-- The contents of the retained store: what the owners hold in it. -/
def State.retained (s : State) : Retained :=
  { siteKey := s.siteKey, tariff := s.tariff, stay := s.stay, lock := s.lock
    titles := keptTitles s.titles
    records := s.charges.list.map ChargeItem.record
    lastIssued := s.charges.lastIssued, acknowledged := s.charges.acknowledged
    netTotal := s.charges.netTotal, taxTotal := s.charges.taxTotal, count := s.charges.count }

/-- A record of the list with its written flag clear. -/
def ChargeItem.unwritten (r : ChargeRecord) : ChargeItem := ⟨r, false⟩

/-- The state whose retained store holds the given contents. Seen flags, written flags and OFFERED entries are no part of
them. -/
def State.holding (s : State) (r : Retained) : State :=
  { s with
    siteKey := r.siteKey, tariff := r.tariff, stay := r.stay, lock := r.lock
    titles := keptTitles r.titles
    charges :=
      { s.charges with
        list := r.records.map ChargeItem.unwritten
        lastIssued := r.lastIssued, acknowledged := r.acknowledged
        netTotal := r.netTotal, taxTotal := r.taxTotal, count := r.count } }

/-- A decay leaves contents in the retained store. What the store has no room for it cannot be left with, and it then stands as
it was. -/
def State.decay (s : State) (left : Retained) : State := if left.inWidth then s.holding left else s

/-! ## The bits of the contents

R157 names neither their order, nor how many bits each item has, nor how a varying number of PIN digits, titles and records is laid
out. All three are the model's own choice (DESIGN CHOICE, log entry 10): each item has the whole bytes that hold its values, and a
byte of length or count stands ahead of what varies in number, with no bits for empty places. -/

/-- The low `w` bits of a number, most significant first. -/
def numberBits (w n : Nat) : List Bool := (List.range w).reverse.map n.testBit

/-- The bits of the tariff (R130). -/
def Tariff.bits (t : Tariff) : List Bool :=
  numberBits 16 t.taxRate ++ numberBits 8 t.siteClamp ++ numberBits 8 t.houseCeiling ++ numberBits 8 t.discreetClass ++
    numberBits 16 t.liftMinutes

/-- The bits of the stay record's own items (R129). -/
def Stay.bits (y : Stay) : List Bool :=
  numberBits 8 (stayCode y.state) ++ numberBits 32 y.number.toNat ++ numberBits 32 y.seconds ++ numberBits 8 y.ceiling ++
    numberBits 32 y.credit ++ numberBits 8 y.discount

/-- The bits of a PIN: its length, 0 for none, then its digits. The layout is the model's own (log entry 10). -/
def pinBits : Option (List Byte) → List Bool
  | none => numberBits 8 0
  | some ds => numberBits 8 ds.length ++ ds.flatMap byteBits

/-- The bits of the lock unit's items (section 6.2). -/
def Lock.bits (l : Lock) : List Bool :=
  pinBits l.pin ++ numberBits 8 l.tries ++ numberBits 16 l.lockout ++ numberBits 16 l.lift

/-- The bits of a title's purchase second and purchase sequence, 0 where it has none (R64). -/
def TitleState.purchaseBits : TitleState → List Bool
  | .purchased second sequence => numberBits 32 second ++ numberBits 32 sequence
  | .lapsed second sequence => numberBits 32 second ++ numberBits 32 sequence
  | _ => numberBits 64 0

/-- The bits of a title entry, but for its seen flags (R64, R81). -/
def TitleEntry.bits (e : TitleEntry) : List Bool :=
  numberBits 16 e.number.toNat ++ numberBits 8 e.rating ++ numberBits 16 e.price ++ numberBits 16 e.limit ++
    numberBits 8 e.hours ++ numberBits 8 (titleStateCode e.state) ++ numberBits 16 e.used ++ e.state.purchaseBits

/-- The bits of a charge record: those of its 32 bytes. -/
def ChargeRecord.bits (c : ChargeRecord) : List Bool := (chargeBytes c).flatMap byteBits

/-- Every bit of the retained items (R157). The order of the items, the width of each, and the counted layout of the titles and the
records, of varying length, are the model's own choice (DESIGN CHOICE, log entry 10). -/
def Retained.bits (r : Retained) : List Bool :=
  numberBits 64 r.siteKey.toNat ++ r.tariff.bits ++ r.stay.bits ++ r.lock.bits ++
    numberBits 8 r.titles.length ++ r.titles.flatMap TitleEntry.bits ++
    numberBits 8 r.records.length ++ r.records.flatMap ChargeRecord.bits ++
    numberBits 32 r.lastIssued ++ numberBits 32 r.acknowledged ++ numberBits 32 r.netTotal ++ numberBits 32 r.taxTotal ++
    numberBits 32 r.count

/-! ## The check word (R157) -/

/-- The check word computed over the retained store as it stands (R154, R156). -/
def State.computeCheck (s : State) : Word := cyclicCheck s.retained.bits

/-- The comparison at the entry to RUN: a check word is held, and it equals one computed afresh (R156). -/
def State.checkHolds (s : State) : Bool := decide (s.checkWord = some s.computeCheck)

end Sys2Proof.Machine
end

