-- ==== Sys2Proof/Machine/Restart.lean ====
section
/-! DEFINITION. How an event is taken, the volatile state, and the restart (chapter 11). -/

namespace Sys2Proof.Machine

/-! ## Taking an event -/

/-- One command or event is taken: a tick in progress is completed first (R145), and an event that cannot be taken in the
state at hand leaves it as it is (log entry 5). -/
def perform (f : State → Option State) (s : State) : Host.Outcome State Fault Refusal :=
  .next ((f s.settle).getD s.settle)

/-- An event that is one of the tick's own steps is taken: the tick in progress is not completed first. -/
def performInTick (f : State → Option State) (s : State) : Host.Outcome State Fault Refusal :=
  .next ((f s).getD s)

/-! ## The volatile state -/

/-- The charge unit with its log regions, its LOG write and its written flags lost (R127). -/
def ChargeUnit.volatileCleared (c : ChargeUnit) : ChargeUnit :=
  { c with
    list := c.list.map (fun i => { i with written := false })
    current := none
    staged := none
    write := none }

/-- A media transaction whose binding has ended (R5, R15). -/
def MediaTxn.unbound (t : MediaTxn) : MediaTxn := { t with bound := false, judged := none }

/-- Every item of volatile state at the value that any restart gives it, but for the cause flags, the lift mark, the lift, the
store port and the supply watch's own items (R15, R33, R51, R81, R127, R138, R152, R154, R161). -/
def State.clearVolatile (s : State) : State :=
  { s with
    media := s.media.map MediaTxn.unbound
    anchor := AnchorLatches.cleared
    commandRing := .closed
    reportRing := .closed
    requests := Requests.none
    waitCount := 0
    rotation := Agent.restartOrder
    lanes := Four.all Lane.unbound
    slots := Four.all none
    titles := keptTitles s.titles
    refused := []
    charges := s.charges.volatileCleared
    fetch := none
    reports := []
    reportWrite := none
    overflow := false
    attention := false
    tickCount := 0
    tick := TickWork.none }

/-- A house access that holds the store port when its agent is cleared or stopped runs to its last word, and its completion is
discarded (R15, R159, R160). -/
def Port.orphaned : Port → Port
  | .house a addr data _ => .house a addr data true
  | p => p

/-- Every retained item at its cold default (R161). -/
def State.coldDefaults (s : State) : State :=
  { s with
    siteKey := 0
    tariff := Tariff.cold
    stay := Stay.cold
    lock := Lock.cold
    titles := []
    charges := { s.charges with lastIssued := 0, acknowledged := 0, netTotal := 0, taxTotal := 0, count := 0, list := [] } }

/-- The lift mark after a restart of a cause (R98, R149). -/
def liftMarkAfter (cause : Cause) (mark : Bool) (lift : Nat) : Bool :=
  match cause with
  | .cold => false
  | .dip => decide (0 < lift)
  | .line => mark || decide (0 < lift)
  | .command => mark || decide (0 < lift)

/-- A restart (R161, by the owners' rules). -/
def State.restart (s : State) (cause : Cause) : State :=
  let s1 :=
    { s.clearVolatile with
      port := s.port.orphaned
      causes := s.causes.after cause
      liftMark := liftMarkAfter cause s.liftMark s.lock.lift
      lock := { s.lock with lift := 0 } }
  if cause = .cold then s1.coldDefaults else s1

end Sys2Proof.Machine
end

