-- ==== Sys2Proof/Machine/CommandUnit.lean ====
section
/-! DEFINITION. The command unit: beginning a fetch, the record a fetch reads, and its completion with the command's result
(R142 to R144). -/

namespace Sys2Proof.Machine

/-- The answer of a command: its result and payload (R143, R150). -/
abbrev Answer := ResultCode × Payload

/-- The conditions under which the command unit raises a COMMAND request (R142). -/
def State.fetchDue (s : State) : Bool :=
  match s.commandRing with
  | .inForce _ n h =>
    h != s.anchor.commandTail.toNat % n && s.fetch.isNone && decide (s.reports.length ≤ 8) && !s.reportRingFull
  | _ => false

/-- The command carried by the record that the fetch holding the store port reads. A fetch that waits, or whose record is to
be discarded, reads none (R11, R142). -/
def State.fetched (s : State) : Option Instr :=
  match s.port with
  | .house .command addr _ false => some (decodeRecord (ofWords (Memory.readWords s.store addr 8)))
  | _ => none

/-- The fetch in progress can complete with a command: the part works, the fetch holds the store port, and its record carries
that command (R143). -/
def State.fetchReady (s : State) (c : Instr) : Bool := s.working && s.fetch.isSome && decide (s.fetched = some c)

/-- Steps 2 to 4 of R143: the result report is handed over, the command head advances, the fetch is no longer in progress and
the store port frees. A request that these steps give rise to comes after the decision on the freed port: the manual gives the
two no order, and the choice is the model's (log entry 23). -/
def State.finishFetch (s : State) (tag : Word) (code : Byte) (a : Answer) : State :=
  { s.hand (.result tag code a.1 a.2) with commandRing := s.commandRing.advance, fetch := none }.handOver

/-- A command of the command ring is taken at the completion of its fetch: its owner executes it and answers (R143). -/
def execCommand (c : Instr) (tag : Word) (code : Byte) (run : State → State × Answer) (s : State) :
    Host.Outcome State Fault Refusal :=
  perform
    (fun s =>
      if s.fetchReady c then
        let ran := run s
        some (ran.1.finishFetch tag code ran.2)
      else none)
    s

end Sys2Proof.Machine
end

