-- ==== Sys2Proof/Machine/LockCommands.lean ====
section
/-! DEFINITION. The lock unit's commands: UNLOCK, RELOCK, SET_CEILING and CHANGE_PIN (chapter 6). -/

namespace Sys2Proof.Machine

/-- A PIN field matches the stay's PIN: the same length and the same digits in the same places (R85). -/
def State.pinMatches (s : State) (p : PinField) : Bool := s.lock.pin == some (pinDigits p)

/-- A PIN comparison that finds no match (R87). -/
def State.wrongPin (s : State) : State × Answer :=
  if s.lock.tries + 1 < 3 then
    ({ s with lock := { s.lock with tries := s.lock.tries + 1 } }, .pinWrong, .triesLeft (3 - (s.lock.tries + 1)))
  else
    ({ s with lock := { s.lock with tries := 0, lockout := 900 } }.raiseEvent (.lockoutStarted 900), .pinWrong, .triesLeft 0)

/-- A comparison of a PIN, made when no lockout is in force; a match returns the try count to 0 and the command goes on by
`matched` (R86, R87). -/
def State.comparePin (s : State) (p : PinField) (matched : State → State × Answer) : State × Answer :=
  if 0 < s.lock.lockout then (s, .lockedOut, .lockedOut s.lock.lockout)
  else if s.pinMatches p then matched { s with lock := { s.lock with tries := 0 } }
  else s.wrongPin

/-- A command taken only in an OCCUPIED stay: NO_STAY when VACANT, CLOSING when CLOSING. -/
def State.inStay (s : State) (run : State → State × Answer) : State × Answer :=
  match s.stay.state with
  | .vacant => (s, .noStay, .absent)
  | .closing => (s, .closing, .absent)
  | .occupied => run s

/-- A lift of the tariff's period starts (R90). -/
def State.startLift (s : State) : State × Answer :=
  let lift := s.tariff.liftMinutes * 60
  ({ s with lock := { s.lock with lift := lift } }, .done, .unlock lift)

/-- UNLOCK executes (R90). -/
def State.runUnlock (s : State) (p : PinField) : State × Answer :=
  if pinWellFormed p = false then (s, .badFormat, .absent)
  else s.inStay (fun s => s.comparePin p State.startLift)

/-- UNLOCK (R85 to R87, R90). -/
def execUnlock (tag : Word) (pin : PinField) (s : State) : Host.Outcome State Fault Refusal :=
  execCommand (.unlock tag pin) tag 0x0C (fun s => s.runUnlock pin) s

/-- A standing lift ends with a reason (R92). -/
def State.endLift (s : State) (r : LiftReason) : State :=
  { s with lock := { s.lock with lift := 0 } }.raiseEvent (.liftEnded r)

/-- RELOCK executes (R93). -/
def State.runRelock (s : State) : State × Answer :=
  s.inStay (fun s => if s.liftActive then (s.endLift .relock, .done, .absent) else (s, .already, .absent))

/-- RELOCK (R92, R93). -/
def execRelock (tag : Word) (s : State) : Host.Outcome State Fault Refusal :=
  execCommand (.relock tag) tag 0x0D State.runRelock s

/-- The guest ceiling is set (R94). -/
def State.setGuestCeiling (s : State) (c : Nat) : State × Answer :=
  ({ s with stay := { s.stay with ceiling := c } }, .done, .setCeiling c)

/-- A guest ceiling asked for, lowered to the site clamp (R83, R94). -/
def State.clampCeiling (s : State) (ceiling : Byte) : Nat := min ceiling.toNat s.tariff.siteClamp

/-- SET_CEILING executes (R94). -/
def State.runSetCeiling (s : State) (ceiling : Byte) (p : PinField) : State × Answer :=
  if 7 < ceiling.toNat then (s, .badFormat, .absent)
  else
    s.inStay (fun s =>
      if s.clampCeiling ceiling ≤ s.stay.ceiling then s.setGuestCeiling (s.clampCeiling ceiling)
      else if pinWellFormed p = false then (s, .badFormat, .absent)
      else s.comparePin p (fun s => s.setGuestCeiling (s.clampCeiling ceiling)))

/-- SET_CEILING (R83, R85 to R87, R94). -/
def execSetCeiling (tag : Word) (ceiling : Byte) (pin : PinField) (s : State) : Host.Outcome State Fault Refusal :=
  execCommand (.setCeiling tag ceiling pin) tag 0x0E (fun s => s.runSetCeiling ceiling pin) s

/-- CHANGE_PIN executes (R95). -/
def State.runChangePin (s : State) (old new : PinField) : State × Answer :=
  if pinWellFormed old = false ∨ pinWellFormed new = false then (s, .badFormat, .absent)
  else
    s.inStay (fun s =>
      s.comparePin old (fun s => ({ s with lock := { s.lock with pin := some (pinDigits new) } }, .done, .absent)))

/-- CHANGE_PIN (R85 to R87, R95). -/
def execChangePin (tag : Word) (old new : PinField) (s : State) : Host.Outcome State Fault Refusal :=
  execCommand (.changePin tag old new) tag 0x0F (fun s => s.runChangePin old new) s

end Sys2Proof.Machine
end

