-- ==== Sys2Proof/Machine/ChargeCommands.lean ====
section
/-! DEFINITION. The charge unit's commands: ACK_CHARGES, LOG_REGION, SET_CREDIT and BUY (chapter 8). -/

namespace Sys2Proof.Machine

/-- ACK_CHARGES executes; the acknowledgement of the CLOSE record, the last record of a CLOSING stay, returns the room to
VACANT first (R120, R136). -/
def State.runAckCharges (s : State) (sequence : Nat) : State × Answer :=
  let ack := s.charges.ackTo sequence
  let acked := { s with charges := s.charges.release ack }
  let after := if s.stay.state = .closing ∧ ack = s.charges.lastIssued then acked.becomeVacant else acked
  (after, .done, .ackCharges after.charges.acknowledged after.charges.lastIssued)

/-- ACK_CHARGES (R120, R136). -/
def execAckCharges (tag : Word) (sequence : Word) (s : State) : Host.Outcome State Fault Refusal :=
  execCommand (.ackCharges tag sequence) tag 0x06 (fun s => s.runAckCharges sequence.toNat) s

/-- The ranges a new log region must keep clear of (R122, order 2). -/
def State.regionObstacles (s : State) : List Extent :=
  anchorExtent :: laneExtents s.lanes ++ s.commandRing.extents ++ s.reportRing.extents ++ logExtents s.charges

/-- The tests of LOG_REGION (R122). -/
def State.regionCheck (s : State) (base slots : Nat) : Option ResultCode :=
  if ¬ (base % 32 = 0 ∧ 8 ≤ slots ∧ slots ≤ 4096 ∧ base + slots * 32 ≤ Config.storeSize) then some .badFormat
  else if overlapsAny (ringExtent base slots 32) s.regionObstacles then some .overlap
  else if s.charges.current.isSome ∧ s.charges.staged.isSome then some .stagedFull
  else none

/-- LOG_REGION executes (R122). -/
def State.runLogRegion (s : State) (base slots : Nat) : State × Answer :=
  match s.regionCheck base slots with
  | some r => (s, r, .absent)
  | none =>
    match s.charges.current with
    | none => ({ s with charges := { s.charges with current := some ⟨base, slots, 0⟩ } }, .done, .logRegion false)
    | some _ => ({ s with charges := { s.charges with staged := some ⟨base, slots⟩ } }, .done, .logRegion true)

/-- LOG_REGION (R122). -/
def execLogRegion (tag : Word) (base : Word) (slots : BitVec 16) (s : State) : Host.Outcome State Fault Refusal :=
  execCommand (.logRegion tag base slots) tag 0x07 (fun s => s.runLogRegion base.toNat slots.toNat) s

/-- SET_CREDIT executes (R118). -/
def State.runSetCredit (s : State) (limit : Word) : State × Answer :=
  s.inStay (fun s =>
    if clampCredit limit < s.spent then (s, .credit, .setCreditSpent s.spent)
    else
      ({ s with stay := { s.stay with credit := clampCredit limit } }, .done,
        .setCredit (clampCredit limit) (clampCredit limit - s.spent)))

/-- SET_CREDIT (R118). -/
def execSetCredit (tag : Word) (limit : Word) (s : State) : Host.Outcome State Fault Refusal :=
  execCommand (.setCredit tag limit) tag 0x08 (fun s => s.runSetCredit limit) s

/-- The payload of a failed BUY: the total and the credit remaining for CREDIT, none for any other result (R116). -/
def State.buyFailure (s : State) (t : BitVec 16) (r : ResultCode) : Payload :=
  match r, s.title? t with
  | .credit, some e => .buyCredit (s.totalOf e) s.creditRemaining
  | _, _ => .absent

/-- BUY executes (R116). -/
def State.runBuy (s : State) (t : BitVec 16) : State × Answer :=
  match s.commitCheck t with
  | .error r => (s, r, s.buyFailure t r)
  | .ok e =>
    let after := s.makeCommit e s.stay.seconds
    (after, .done, .buy after.charges.lastIssued (s.netOf e) (s.taxOf e) after.spent after.creditRemaining)

/-- BUY (R113 to R116). -/
def execBuy (tag : Word) (title : BitVec 16) (s : State) : Host.Outcome State Fault Refusal :=
  execCommand (.buy tag title) tag 0x09 (fun s => s.runBuy title) s

end Sys2Proof.Machine
end

