-- ==== Sys2Proof/Machine/CommandFetch.lean ====
section
/-! DEFINITION. COMMAND_FETCH_REQUEST and the two commands that no other block owns: RESTART and an unknown code (R142, R144,
R160). -/

namespace Sys2Proof.Machine

/-- The fetch of the record at the command head begins (R142). -/
def State.beginFetch (s : State) : Option State :=
  if s.working && s.fetchDue then some ({ s with fetch := some s.commandRing.head }.request .command) else none

/-- COMMAND_FETCH_REQUEST (R142). -/
def execCommandFetchRequest (s : State) : Host.Outcome State Fault Refusal := perform State.beginFetch s

/-- UNKNOWN: a record whose command code is unassigned does nothing (R144). -/
def execUnknown (tag : Word) (code : Byte) (s : State) : Host.Outcome State Fault Refusal :=
  execCommand (.unknown tag code) tag code (fun s => (s, .unknown, .absent)) s

/-- RESTART: a restart of cause COMMAND, with no result report; the fetch that brought it ends and the store port is handed on
from the reset state (R15, R143, R160). -/
def execRestart (tag : Word) (s : State) : Host.Outcome State Fault Refusal :=
  perform (fun s => if s.fetchReady (.restart tag) then some (s.restart .command).handOver else none) s

end Sys2Proof.Machine
end

