-- ==== Sys2Proof/Machine/LaneCommands.lean ====
section
/-! DEFINITION. BIND and UNBIND (section 2.3). -/

namespace Sys2Proof.Machine

/-- The lane a lane byte names. -/
def laneOf (b : Byte) : Option (Fin 4) := if h : b.toNat < 4 then some ⟨b.toNat, h⟩ else none

/-- The format test of BIND, with the lane and the role it reads (R17, order 1). -/
def bindFormat (lane role : Byte) (base slots : Nat) : Option (Fin 4 × Role) :=
  if base % 128 = 0 ∧ 16 ≤ slots ∧ slots ≤ 1024 ∧ base + slots * 128 ≤ Config.storeSize then
    match laneOf lane, roleOf role with
    | some n, some r => some (n, r)
    | _, _ => none
  else none

/-- The ranges a new lane ring must keep clear of (R17, order 3). -/
def State.bindObstacles (s : State) : List Extent :=
  anchorExtent :: laneExtents s.lanes ++ s.commandRing.extents ++ s.reportRing.extents ++ logExtents s.charges

/-- Another lane holds the role MAIN (R17, order 4). -/
def State.mainTaken (s : State) : Bool := four.any s.laneIsMain

/-- The tests of BIND from order 2 on (R17). -/
def State.bindCheck (s : State) (n : Fin 4) (b : Binding) : Option ResultCode :=
  if (s.lanes.get n).binding.isSome then some .laneBusy
  else if overlapsAny b.extent s.bindObstacles then some .overlap
  else if b.role = .main ∧ s.mainTaken = true then some .roleTaken
  else if s.freeEntries < b.slots then some .noDirectory
  else none

/-- A lane just bound (R18). -/
def Lane.fresh (b : Binding) : Lane :=
  { Lane.unbound with binding := some b, slice := List.replicate b.slots Entry.fresh }

/-- The lane is bound and joins the service slot of its service (R18, R47). -/
def State.bindLane (s : State) (n : Fin 4) (b : Binding) : State := (s.setLane n (Lane.fresh b)).joinSlot b.service

/-- BIND executes (R17, R18). -/
def State.runBind (s : State) (lane role service : Byte) (base slots : Nat) : State × Answer :=
  match bindFormat lane role base slots with
  | none => (s, .badFormat, .absent)
  | some (n, r) =>
    let b : Binding := { base := base, slots := slots, service := service, role := r }
    match s.bindCheck n b with
    | some code => (s, code, .absent)
    | none => (s.bindLane n b, .done, .absent)

/-- BIND (R17, R18, R47). -/
def execBind (tag : Word) (lane role service : Byte) (base : Word) (slots : BitVec 16) (s : State) :
    Host.Outcome State Fault Refusal :=
  execCommand (.bind tag lane role service base slots) tag 0x0A
    (fun s => s.runBind lane role service base.toNat slots.toNat) s

/-- A media transaction of lane `n` finds its binding ended (R5). -/
def MediaTxn.unbindLane (t : MediaTxn) (n : Fin 4) : MediaTxn := if t.cls = .lane n then t.unbound else t

/-- The lane is unbound and leaves its service slot (R19, R48). -/
def State.unbindLane (s : State) (n : Fin 4) (b : Binding) : State :=
  { (s.setLane n Lane.unbound).leaveSlot b.service with media := s.media.map (fun t => t.unbindLane n) }

/-- UNBIND executes (R19). -/
def State.runUnbind (s : State) (lane : Byte) : State × Answer :=
  match laneOf lane with
  | none => (s, .badFormat, .absent)
  | some n =>
    match (s.lanes.get n).binding with
    | none => (s, .laneIdle, .absent)
    | some b => (s.unbindLane n b, .done, .absent)

/-- UNBIND (R19, R48). -/
def execUnbind (tag : Word) (lane : Byte) (s : State) : Host.Outcome State Fault Refusal :=
  execCommand (.unbind tag lane) tag 0x0B (fun s => s.runUnbind lane) s

end Sys2Proof.Machine
end

