-- ==== Sys2Proof/Machine/LaneRing.lean ====
section
/-! DEFINITION. The words of lane ring transactions: header writes, payload writes and read words (R4, R5, chapters 2 and 7). -/

namespace Sys2Proof.Machine

/-- A word written to a lane ring passes to the store unchanged and, while the transaction's binding stands, is handed to the
lane engine (R4, R5). `header` says whether it is a slot's header word. -/
def State.laneWriteStep (s : State) (header : Bool) (w : WriteWord) (take : State → Fin 4 → Nat → State) : Option State :=
  match s.wordTxn .write with
  | none => none
  | some t =>
    match t.cls with
    | .lane n =>
      if decide (t.nextAddr % 128 = 0) = header then
        let stored := (s.storeWord t.nextAddr w).passWord t
        some (if t.bound then take stored n t.nextAddr else stored)
      else none
    | _ => none

/-- HEADER_WRITE (R4, R5, R16, R21 to R25, R29, R30). -/
def execHeaderWrite (w : WriteWord) (s : State) : Host.Outcome State Fault Refusal :=
  perform (fun s => s.laneWriteStep true w (fun s n a => s.takeHeader n a w)) s

/-- PAYLOAD_WRITE (R4, R5, R26, R29, R31). -/
def execPayloadWrite (w : WriteWord) (s : State) : Host.Outcome State Fault Refusal :=
  perform (fun s => s.laneWriteStep false w (fun s n a => s.takePayload n a w)) s

/-- A word of a judged burst as it is presented (R106). -/
def presentWord (j : Judgement) (addr : Nat) (stored : Word) : Word :=
  if addr % 128 = 0 then j.header stored else j.treatment.present (payloadIndex addr) stored

/-- The first payload word of a first read makes the entry READ and hands the seen mark, once (R27, R108). -/
def State.firstPayload (s : State) (t : MediaTxn) (n : Fin 4) (j : Judgement) : State :=
  if t.nextAddr % 128 ≠ 0 ∧ j.firstRead = true then
    match (s.lanes.get n).binding with
    | none => s
    | some b =>
      let read := s.markRead n (b.slotAt t.nextAddr)
      match j.mark with
      | some m => read.applyMark m
      | none => read
  else s

/-- The judgement of a burst once the first read and the seen mark of its slot have been taken. -/
def Judgement.afterWord (j : Judgement) (addr : Nat) : Judgement :=
  if addr % 128 ≠ 0 then { j with firstRead := false, mark := none } else j

/-- A word of a lane ring read is presented: by the burst's judgement while the binding stands, else as stored (R5, R63, R106). -/
def State.laneReadStep (s : State) : Option State :=
  match s.wordTxn .read with
  | none => none
  | some t =>
    match t.cls with
    | .lane n =>
      let stored := Memory.readWord s.store t.nextAddr
      match t.judged with
      | some j =>
        let shown := { s with presented := s.presented ++ [presentWord j t.nextAddr stored] }
        some ((shown.firstPayload t n j).passWord { t with judged := some (j.afterWord t.nextAddr) })
      | none => some ({ s with presented := s.presented ++ [stored] }.passWord t)
    | _ => none

/-- LANE_READ_WORD (R4, R5, R27, R63, R106 to R108). -/
def execLaneReadWord (s : State) : Host.Outcome State Fault Refusal := perform State.laneReadStep s

end Sys2Proof.Machine
end

