-- ==== Sys2Proof/Machine/ReportRing.lean ====
section
/-! DEFINITION. The report writer's steps on the report ring (R146, R147, R149, R151) and the completion of an orphaned house
access (R11, R15). -/

namespace Sys2Proof.Machine

/-- The place of the next report write: the ring's base + head × 32 (R146). -/
def Ring.place : Ring → Nat
  | .inForce base _ h => base + h * 32
  | _ => 0

/-- The report writer takes from the pending queue. With the ring not OPEN or full, the report taken is dropped and the next is
taken at once, until the queue is empty; else a report write of the oldest report begins, which carries LOST_BEFORE when the
overflow mark is set (R146, R147). -/
def State.takeReport (s : State) : Option State :=
  match s.reports with
  | [] => none
  | r :: rest =>
    if s.working = true ∧ s.reportWrite = none then
      if s.reportRing.isOpen = false ∨ s.reportRingFull = true then some { s with reports := [], overflow := true }
      else
        some
          ({ s with
              reports := rest
              reportWrite := some ⟨{ r with lost := r.lost || s.overflow }, s.reportRing.place, false⟩
              overflow := false }.request .report)
    else none

/-- REPORT_TAKE (R146, R147). -/
def execReportTake (s : State) : Host.Outcome State Fault Refusal := perform State.takeReport s

/-- The eight words of a house write stand in the store (R124, R146). -/
def State.houseWrite (s : State) (addr : Nat) (data : List Word) : State :=
  { s with store := Memory.writeWords s.store addr (data.map houseWord) }

/-- The marks cleared when the write of a report completes: the cause flags by RESTARTED, the lift mark by LIFT_ENDED (RESTART)
(R149). -/
def State.clearMarks (s : State) (r : Report) : State :=
  { s with
    causes := if r.isRestarted then Causes.none else s.causes
    liftMark := if r.isLiftRestart then false else s.liftMark }

/-- A report write completes (R146, R149, R151). -/
def State.completeReport (s : State) : Option State :=
  match s.port, s.reportWrite with
  | .house .report addr data false, some w =>
    if s.working then
      some
        ({ (s.houseWrite addr data).clearMarks w.report with
            reportRing := s.reportRing.advance
            reportWrite := none }.refreshAttention.handOver)
    else none
  | _, _ => none

/-- REPORT_WRITE_COMPLETE (R146, R149, R151). -/
def execReportWriteComplete (s : State) : Host.Outcome State Fault Refusal := perform State.completeReport s

/-- The fetch or report write that a ring's open orphaned stays in progress until its last word has passed, and is then over
(R11). One whose request waits is not the orphan's. -/
def State.dropOrphan (s : State) : Agent → State
  | .command => if s.requests.command then s else { s with fetch := none }
  | .report => if s.requests.report then s else { s with reportWrite := none }
  | .log => s

/-- An orphaned house access reaches its last word: a write stands whole in the store, the completion is discarded, and the
store port is handed on (R11, R13, R15, R159, R160). -/
def State.discardHouse (s : State) : Option State :=
  match s.port with
  | .house a addr data true =>
    if s.inRun then some ((s.houseWrite addr data).dropOrphan a).handOver else none
  | _ => none

/-- HOUSE_ACCESS_DISCARDED (R11, R13, R15). -/
def execHouseAccessDiscarded (s : State) : Host.Outcome State Fault Refusal := perform State.discardHouse s

end Sys2Proof.Machine
end

