-- ==== Sys2Proof/Machine/LogAgent.lean ====
section
/-! DEFINITION. The LOG agent's steps (R124, R125). -/

namespace Sys2Proof.Machine

/-- A LOG write begins: the oldest unwritten record, at the current region's write index (R124). -/
def State.beginLog (s : State) : Option State :=
  match s.charges.current, s.charges.nextUnwritten, s.charges.write with
  | some r, some c, none =>
    if s.working then
      some ({ s with charges := { s.charges with write := some ⟨c, r.base + r.index * 32, true⟩ } }.request .log)
    else none
  | _, _, _ => none

/-- LOG_WRITE_BEGIN (R124). -/
def execLogWriteBegin (s : State) : Host.Outcome State Fault Refusal := perform State.beginLog s

/-- A LOG write completes: the record still listed is marked written, and the write index advances (R124, R125). -/
def State.completeLog (s : State) : Option State :=
  match s.port, s.charges.write with
  | .house .log addr data false, some w =>
    if s.working then
      let stored := s.houseWrite addr data
      let flagged :=
        { stored with
          charges :=
            { stored.charges with
              list := if w.listed then markWritten stored.charges.list w.record.sequence else stored.charges.list
              write := none } }
      some flagged.advanceRegion.handOver
    else none
  | _, _ => none

/-- LOG_WRITE_COMPLETE (R124, R125). -/
def execLogWriteComplete (s : State) : Host.Outcome State Fault Refusal := perform State.completeLog s

end Sys2Proof.Machine
end

