-- ==== Sys2Proof/Machine/MediaPort.lean ====
section
/-! DEFINITION. The media port and the anchor block: command phases, completions, resumption and the written anchor words
(sections 1.1 to 1.4). -/

namespace Sys2Proof.Machine

/-- A command phase is presented to a working part. With no transaction in flight it is taken: the transaction is classified and
asks for the store port. Behind a transaction in flight it stands at the media port until that one is complete (R1, R2, R6; log
entry 24). -/
def State.takeCommandPhase (s : State) (dir : Direction) (addr count : Nat) : Option State :=
  if s.working = false then none
  else if s.media = none then
    some { s with media := some (s.newTxn dir addr count), presented := [] }.requestMedia
  else if s.nextPhase = none then some { s with nextPhase := some ⟨dir, addr, count⟩ }
  else none

/-- MEDIA_COMMAND_PHASE (R1, R2, R6, R13). What is no transaction of the bus is refused. -/
def execMediaCommandPhase (dir : Direction) (addr : Word) (count : Nat) (s : State) : Host.Outcome State Fault Refusal :=
  if inStore addr = false then .fault .addressOutsideStore
  else if isBurst addr count = false then .refused .notABurst
  else perform (fun s => s.takeCommandPhase dir addr.toNat count) s

/-- The transaction that the last word completes: one whose words pass one by one has none left, and for any other the words
still to pass now pass (R1, R3, R8). -/
def State.lastWords (s : State) (t : MediaTxn) (words : List WriteWord) : Option State :=
  if t.wordByWord then if t.left = 0 then some s else none
  else
    match t.dir with
    | .write => if words.length = t.left then some (s.passPlain t words 0) else none
    | .read => some (s.passPlain t [] t.left)

/-- The media transaction completes: the store port frees and the arbiter decides the next grant, in which a transaction whose
command phase stood ready takes part (R1, R13, the example of section 1.5). -/
def State.completeMedia (s : State) (words : List WriteWord) : Option State :=
  match s.media with
  | none => none
  | some t =>
    if s.working = true ∧ s.port = .media ∧ t.phase = .data then
      (s.lastWords t words).map (fun u => u.nextMedia.handOver)
    else none

/-- MEDIA_TRANSACTION_COMPLETE (R1, R3, R8, R13). -/
def execMediaTransactionComplete (words : List WriteWord) (s : State) : Host.Outcome State Fault Refusal :=
  perform (fun s => s.completeMedia words) s

/-- A held transaction resumes after the restart, asking for the store port for its remaining words (R6, R158). -/
def State.resumeMedia (s : State) : Option State :=
  match s.media with
  | none => none
  | some t =>
    if s.working = true ∧ t.phase = .held then
      some { s with media := some { t with phase := .waiting } }.requestMedia
    else none

/-- MEDIA_RESUME (R6, R158). -/
def execMediaResume (s : State) : Host.Outcome State Fault Refusal := perform State.resumeMedia s

/-- The anchor words whose write has a behaviour of its own: the two slots words and the two tails (section 1.3). -/
def ownBehaviour (addr : Nat) : Bool := addr == 4 || addr == 8 || addr == 36 || addr == 40

/-- A written anchor word at an address that `at?` accepts passes to the store, and then acts on the part unless all its bytes
are masked (R7). -/
def State.anchorStep (s : State) (at? : Nat → Bool) (w : WriteWord) (act : State → Nat → State) : Option State :=
  match s.wordTxn .write with
  | none => none
  | some t =>
    if t.cls = .anchor ∧ at? t.nextAddr = true then
      let stored := (s.storeWord t.nextAddr w).passWord t
      some (if w.allMasked then stored else act stored t.nextAddr)
    else none

/-- A base word replaces the unmasked bytes of its latch (R7). -/
def State.latchBase (s : State) (w : WriteWord) (addr : Nat) : State :=
  if addr = 0 then { s with anchor := { s.anchor with commandBase := mergeWord s.anchor.commandBase w } }
  else if addr = 32 then { s with anchor := { s.anchor with reportBase := mergeWord s.anchor.reportBase w } }
  else s

/-- ANCHOR_WRITE (R7). -/
def execAnchorWrite (w : WriteWord) (s : State) : Host.Outcome State Fault Refusal :=
  perform (fun s => s.anchorStep (fun a => !ownBehaviour a) w (fun s a => s.latchBase w a)) s

/-- The command ring slots word is latched and opens the ring (R7, R10). -/
def State.writeCommandSlots (s : State) (w : WriteWord) : State :=
  { s with anchor := { s.anchor with commandSlots := mergeWord s.anchor.commandSlots w } }.openCommandRing

/-- COMMAND_RING_SLOTS (R7, R10, R11). -/
def execCommandRingSlots (w : WriteWord) (s : State) : Host.Outcome State Fault Refusal :=
  perform (fun s => s.anchorStep (fun a => a == 4) w (fun s _ => s.writeCommandSlots w)) s

/-- The report ring slots word is latched and opens the ring (R7, R10). -/
def State.writeReportSlots (s : State) (w : WriteWord) : State :=
  { s with anchor := { s.anchor with reportSlots := mergeWord s.anchor.reportSlots w } }.openReportRing

/-- REPORT_RING_SLOTS (R7, R10, R11, R149). -/
def execReportRingSlots (w : WriteWord) (s : State) : Host.Outcome State Fault Refusal :=
  perform (fun s => s.anchorStep (fun a => a == 36) w (fun s _ => s.writeReportSlots w)) s

/-- The command tail is latched (R7, R12). -/
def State.writeCommandTail (s : State) (w : WriteWord) : State :=
  { s with anchor := { s.anchor with commandTail := mergeWord s.anchor.commandTail w } }

/-- COMMAND_TAIL (R7, R12). -/
def execCommandTail (w : WriteWord) (s : State) : Host.Outcome State Fault Refusal :=
  perform (fun s => s.anchorStep (fun a => a == 8) w (fun s _ => s.writeCommandTail w)) s

/-- The report tail is latched, and the attention line follows (R7, R151). -/
def State.writeReportTail (s : State) (w : WriteWord) : State :=
  { s with anchor := { s.anchor with reportTail := mergeWord s.anchor.reportTail w } }.refreshAttention

/-- REPORT_TAIL (R7, R12, R151). -/
def execReportTail (w : WriteWord) (s : State) : Host.Outcome State Fault Refusal :=
  perform (fun s => s.anchorStep (fun a => a == 40) w (fun s _ => s.writeReportTail w)) s

end Sys2Proof.Machine
end

