-- ==== Sys2Proof/Machine/StayCommands.lean ====
section
/-! DEFINITION. The descrambler's, the stay controller's and the title table's commands: SITE_KEY, TARIFF, OPEN_STAY,
CLOSE_STAY, STAY_QUERY and QUERY_TITLE (sections 4.5, 5.7 and chapter 9). -/

namespace Sys2Proof.Machine

/-- SITE_KEY executes (R62). -/
def State.runSiteKey (s : State) (key : BitVec 64) : State × Answer := ({ s with siteKey := key }, .done, .absent)

/-- SITE_KEY (R61, R62). -/
def execSiteKey (tag : Word) (key : BitVec 64) (s : State) : Host.Outcome State Fault Refusal :=
  execCommand (.siteKey tag key) tag 0x01 (fun s => s.runSiteKey key) s

/-- The tariff that TARIFF takes from its fields (R131). -/
def takenTariff (taxRate : BitVec 16) (siteClamp houseCeiling discreetClass : Byte) (liftMinutes : BitVec 16) : Tariff :=
  { taxRate := min taxRate.toNat 3000
    siteClamp := siteClamp.toNat
    houseCeiling := min houseCeiling.toNat siteClamp.toNat
    discreetClass := discreetClass.toNat
    liftMinutes := clampMinutes liftMinutes }

/-- TARIFF executes (R131). -/
def State.runTariff (s : State) (taxRate : BitVec 16) (siteClamp houseCeiling discreetClass : Byte)
    (liftMinutes : BitVec 16) : State × Answer :=
  if 7 < siteClamp.toNat ∨ 8 < discreetClass.toNat then (s, .badFormat, .absent)
  else if s.stay.state ≠ .vacant then (s, .stayOpen, .absent)
  else
    let t := takenTariff taxRate siteClamp houseCeiling discreetClass liftMinutes
    ({ s with tariff := t }, .done, .tariff t)

/-- TARIFF (R83, R131). -/
def execTariff (tag : Word) (taxRate : BitVec 16) (siteClamp houseCeiling discreetClass : Byte) (liftMinutes : BitVec 16)
    (s : State) : Host.Outcome State Fault Refusal :=
  execCommand (.tariff tag taxRate siteClamp houseCeiling discreetClass liftMinutes) tag 0x02
    (fun s => s.runTariff taxRate siteClamp houseCeiling discreetClass liftMinutes) s

/-- The stay is opened (R69, R96, R111, R134). -/
def State.openedStay (s : State) (number : Word) (ceiling credit discount : Nat) (pin : List Byte) : State :=
  { s with
    stay := { state := .occupied, number := number, seconds := 0, ceiling := ceiling, credit := credit, discount := discount }
    charges := { s.charges with netTotal := 0, taxTotal := 0, count := 0 }
    lock := { s.lock with pin := some pin }
    titles := s.titles.map exhaustZeroPreview }

/-- OPEN_STAY executes (R133, R134). -/
def State.runOpenStay (s : State) (number : Word) (ceiling : Byte) (credit : Word) (discount : Byte) (pin : PinField) :
    State × Answer :=
  if number = 0 ∨ pinWellFormed pin = false then (s, .badFormat, .absent)
  else if s.stay.state ≠ .vacant then (s, .stayBusy, .absent)
  else
    let c := s.clampCeiling ceiling
    let k := clampCredit credit
    let d := clampDiscount discount
    (s.openedStay number c k d (pinDigits pin), .done, .openStay c k d)

/-- OPEN_STAY (R69, R83, R85, R133, R134). -/
def execOpenStay (tag : Word) (number : Word) (ceiling : Byte) (credit : Word) (discount : Byte) (pin : PinField) (s : State) :
    Host.Outcome State Fault Refusal :=
  execCommand (.openStay tag number ceiling credit discount pin) tag 0x03
    (fun s => s.runOpenStay number ceiling credit discount pin) s

/-- The stay begins to close: a standing lift ends, the CLOSE record is issued, and the state becomes CLOSING (R92, R121,
R135). -/
def State.beginClose (s : State) : State :=
  let s1 := if s.liftActive then s.endLift .close else s
  { s1 with
    charges := s1.charges.issue s1.closeRecord
    stay := { s1.stay with state := .closing } }

/-- CLOSE_STAY executes (R135). -/
def State.runCloseStay (s : State) : State × Answer :=
  match s.stay.state with
  | .vacant => (s, .noStay, .absent)
  | .closing => (s, .already, .absent)
  | .occupied =>
    (s.beginClose, .done,
      .closeStay (s.charges.lastIssued + 1) s.charges.netTotal s.charges.taxTotal s.charges.count)

/-- CLOSE_STAY (R92, R121, R135). -/
def execCloseStay (tag : Word) (s : State) : Host.Outcome State Fault Refusal :=
  execCommand (.closeStay tag) tag 0x04 State.runCloseStay s

/-- The credit remaining that STAY_QUERY reports (R137). -/
def State.queriedCredit (s : State) : Nat := if s.stay.state = .vacant then 0 else s.creditRemaining

/-- STAY_QUERY executes (R137). -/
def State.runStayQuery (s : State) : State × Answer :=
  (s, .done,
    .stayQuery s.stay.state s.charges.netTotal s.charges.taxTotal s.queriedCredit s.charges.lastIssued s.charges.acknowledged)

/-- STAY_QUERY (R137). -/
def execStayQuery (tag : Word) (s : State) : Host.Outcome State Fault Refusal :=
  execCommand (.stayQuery tag) tag 0x05 State.runStayQuery s

/-- Rental seconds remaining (R79). -/
def State.rentalRemaining (s : State) (e : TitleEntry) : Nat :=
  match e.state with
  | .purchased second _ => second + e.hours * 3600 - s.stay.seconds
  | .lapsed _ _ => 0
  | _ => e.hours * 3600

/-- The purchase sequence QUERY_TITLE reports (R79). -/
def TitleState.sequence : TitleState → Nat
  | .purchased _ q => q
  | .lapsed _ q => q
  | _ => 0

/-- QUERY_TITLE executes (R79). -/
def State.runQueryTitle (s : State) (t : BitVec 16) : State × Answer :=
  match s.title? t with
  | none => (s, .noTitle, .absent)
  | some e =>
    if t = 0 then (s, .noTitle, .absent)
    else (s, .done, .queryTitle e.state e.rating e.used e.limit e.price (s.rentalRemaining e) e.state.sequence)

/-- QUERY_TITLE (R79). -/
def execQueryTitle (tag : Word) (title : BitVec 16) (s : State) : Host.Outcome State Fault Refusal :=
  execCommand (.queryTitle tag title) tag 0x10 (fun s => s.runQueryTitle title) s

end Sys2Proof.Machine
end

