-- ==== Sys2Proof/Machine/Supply.lean ====
section
/-! DEFINITION. The supply watch, power-on, retention and the reset line (chapter 11). -/

namespace Sys2Proof.Machine

/-- How a sample of the main supply is judged (R153). -/
inductive Sample where
  | low
  | between
  | good
  deriving DecidableEq, Repr

/-- A sample in millivolts against the supply-low level of 2.85 V and the supply-good level of 3.05 V (R153). -/
def judgeSample (millivolts : Nat) : Sample :=
  if millivolts < 2850 then .low else if 3050 < millivolts then .good else .between

/-- The burst that holds the store port is cut after the word then passing; `words` are the words that passed and have no step
of their own, by their number for a read or a house write (R158). -/
def State.cutBurst (s : State) (words : List WriteWord) : State :=
  match s.port with
  | .house _ addr data _ => { s.houseWrite addr (data.take words.length) with port := .free }
  | _ => { s with port := .free }

/-- The entry to RETAIN (R154, R158): the check word is computed over the retained store as it stands, the store burst is cut,
a media transaction is held, a command phase not yet taken is not (R6; log entry 24), and every item of volatile state is
abandoned. -/
def State.enterRetainStep (s : State) (words : List WriteWord) : State :=
  { ((s.cutMedia words).cutBurst words).clearVolatile with
    nextPhase := none
    supply := .retain
    checkWord := some s.computeCheck
    causes := Causes.none
    liftMark := false }

/-- ENTER_RETAIN (R153, R154): the 32nd consecutive low sample in RUN. -/
def execEnterRetain (passed : List WriteWord) (s : State) : Host.Outcome State Fault Refusal :=
  perform (fun s => if s.supply = .run 31 then some (s.enterRetainStep passed) else none) s

/-- A good sample in RETAIN takes the part to RECOVER with good count 1 (R155). -/
def State.recoverStep (s : State) : State := { s with supply := .recover 1 }

/-- SUPPLY_RECOVER (R155). -/
def execSupplyRecover (s : State) : Host.Outcome State Fault Refusal :=
  perform (fun s => if s.supply = .retain then some s.recoverStep else none) s

/-- A low sample in RECOVER returns the part to RETAIN, and the check word stands (R155). -/
def State.relapseStep (s : State) : State := { s with supply := .retain }

/-- The part is in RECOVER. -/
def State.inRecover (s : State) : Bool :=
  match s.supply with
  | .recover _ => true
  | _ => false

/-- SUPPLY_RELAPSE (R155). -/
def execSupplyRelapse (s : State) : Host.Outcome State Fault Refusal :=
  perform (fun s => if s.inRecover then some s.relapseStep else none) s

/-- The entry to RUN: the check word is compared, and a restart of cause DIP or COLD runs (R156). `changed` are the bytes the
store devices came up with. -/
def State.enterRunStep (s : State) (changed : List (BitVec 26 × Byte)) : State :=
  { s.restart (if s.checkHolds then .dip else .cold) with
    supply := .run 0
    checkWord := none
    store := Memory.change s.store changed }

/-- ENTER_RUN (R155, R156): the 4,096th consecutive good sample in RECOVER. -/
def execEnterRun (changed : List (BitVec 26 × Byte)) (s : State) : Host.Outcome State Fault Refusal :=
  perform (fun s => if s.supply = .recover 4095 then some (s.enterRunStep changed) else none) s

/-- A sample in RUN (R153). -/
def State.sampleRun (s : State) (low : Nat) : Sample → State
  | .low => if low + 1 = 32 then s.enterRetainStep [] else { s with supply := .run (low + 1) }
  | .between => { s with supply := .run 0 }
  | .good => { s with supply := .run 0 }

/-- A sample in RECOVER (R155). -/
def State.sampleRecover (s : State) (good : Nat) : Sample → State
  | .low => s.relapseStep
  | .between => { s with supply := .recover 0 }
  | .good => if good + 1 = 4096 then s.enterRunStep [] else { s with supply := .recover (good + 1) }

/-- A sample of the main supply, in any supply state (R153, R155). -/
def State.sampleStep (s : State) (x : Sample) : State :=
  match s.supply with
  | .run low => s.sampleRun low x
  | .retain => if x = .good then s.recoverStep else s
  | .recover good => s.sampleRecover good x

/-- SUPPLY_SAMPLE (R153, R155). -/
def execSupplySample (millivolts : Nat) (s : State) : Host.Outcome State Fault Refusal :=
  perform (fun s => some (s.sampleStep (judgeSample millivolts))) s

/-- The part comes out of its power-on clear in RETAIN with no check word held (R156). -/
def State.powerOnStep (s : State) : State :=
  { s.clearVolatile with
    media := none
    nextPhase := none
    presented := []
    port := .free
    causes := Causes.none
    liftMark := false
    supply := .retain
    checkWord := none }

/-- POWER_ON (R156). -/
def execPowerOn (s : State) : Host.Outcome State Fault Refusal := perform (fun s => some s.powerOnStep) s

/-- A decay while the main supply is absent: the retained store is left with contents that are a free value (R157; log entry
11). -/
def State.decayStep (s : State) : Option State :=
  if s.inRun then none else some { s.decay (Config.decayedStore s.freeDraws) with freeDraws := s.freeDraws + 1 }

/-- RETAINED_STORE_DECAY (R157): while the main supply is absent, the retained store loses its contents and is left with others;
whether that is seen is for the comparison at the entry to RUN to tell (R156). -/
def execRetainedStoreDecay (s : State) : Host.Outcome State Fault Refusal := perform State.decayStep s

/-- MEDIA's burst ends its hold of the store port; a house access runs on as an orphan (R159). -/
def Port.heldByLine : Port → Port
  | .media => .free
  | p => p.orphaned

/-- The reset line is asserted in RUN: a media transaction is held, its store burst ended after the word then passing, a command
phase not yet taken is not held (log entry 24), a house access that holds the store port is to be discarded, and the tick count
is abandoned (R6, R138, R159). -/
def State.lineHolds (s : State) (words : List WriteWord) : State :=
  { s.cutMedia words with nextPhase := none, port := s.port.heldByLine, tickCount := 0, resetLine := true }

/-- The reset line is asserted; outside RUN that has no effect of its own (R159). -/
def State.assertStep (s : State) (words : List WriteWord) : Option State :=
  if s.resetLine then none
  else if s.inRun then some (s.lineHolds words)
  else some { s with resetLine := true }

/-- RESET_ASSERT (R6, R159). -/
def execResetAssert (passed : List WriteWord) (s : State) : Host.Outcome State Fault Refusal :=
  perform (fun s => s.assertStep passed) s

/-- The reset line is released: in RUN a restart of cause LINE runs; outside RUN it causes none (R156, R159). -/
def State.releaseStep (s : State) : Option State :=
  if s.resetLine = false then none
  else if s.inRun then some { s.restart .line with resetLine := false }
  else some { s with resetLine := false }

/-- RESET_RELEASE (R159, R161). -/
def execResetRelease (s : State) : Host.Outcome State Fault Refusal := perform State.releaseStep s

end Sys2Proof.Machine
end

