-- ==== Sys2Proof/Machine/Ticks.lean ====
section
/-! DEFINITION. The rows of a seconds tick: SECONDS_TICK and the steps it leaves outstanding (R71 to R75, R88, R91, R138). -/

namespace Sys2Proof.Machine

/-- SECONDS_TICK (R71, R72, R75, R88, R91, R138, R139): ticks are taken only while the part works. -/
def execSecondsTick (s : State) : Host.Outcome State Fault Refusal :=
  perform (fun s => if s.working then some s.secondsTickStep else none) s

/-- PREVIEW_END (R72, R73, R74). -/
def execPreviewEnd (s : State) : Host.Outcome State Fault Refusal := performInTick State.previewEndStep s

/-- RENTAL_LAPSED (R75). -/
def execRentalLapsed (s : State) : Host.Outcome State Fault Refusal := performInTick State.rentalLapsedStep s

/-- LIFT_EXPIRED (R91, R92). -/
def execLiftExpired (s : State) : Host.Outcome State Fault Refusal := performInTick State.liftExpiredStep s

/-- LOCKOUT_ENDED (R88). -/
def execLockoutEnded (s : State) : Host.Outcome State Fault Refusal := performInTick State.lockoutEndedStep s

/-- One period of the reference clock, which is what a step on an empty queue is (DESIGN CHOICE, log entry 7): the tick count
runs only while the part works, and every 32,768th period is a tick (R138). -/
def clockPeriod (s : State) : State :=
  let t := s.settle
  if t.working then
    if t.tickCount + 1 = 32768 then t.secondsTickStep else { t with tickCount := t.tickCount + 1 }
  else t

end Sys2Proof.Machine
end

