-- ==== Sys2Proof/Machine/Dispatch.lean ====
section
/-! DEFINITION. The dispatch: one arm per row of the table, each one call of its meaning. -/

namespace Sys2Proof.Machine

def exec (i : Instr) (s : State) : Host.Outcome State Fault Refusal :=
  match i with
  | .mediaCommandPhase dir addr count => Sys2Proof.Machine.execMediaCommandPhase dir addr count s
  | .mediaTransactionComplete words => Sys2Proof.Machine.execMediaTransactionComplete words s
  | .mediaResume => Sys2Proof.Machine.execMediaResume s
  | .anchorWrite w => Sys2Proof.Machine.execAnchorWrite w s
  | .commandRingSlots w => Sys2Proof.Machine.execCommandRingSlots w s
  | .reportRingSlots w => Sys2Proof.Machine.execReportRingSlots w s
  | .commandTail w => Sys2Proof.Machine.execCommandTail w s
  | .reportTail w => Sys2Proof.Machine.execReportTail w s
  | .headerWrite w => Sys2Proof.Machine.execHeaderWrite w s
  | .payloadWrite w => Sys2Proof.Machine.execPayloadWrite w s
  | .laneReadWord => Sys2Proof.Machine.execLaneReadWord s
  | .commandFetchRequest => Sys2Proof.Machine.execCommandFetchRequest s
  | .siteKey tag key => Sys2Proof.Machine.execSiteKey tag key s
  | .tariff tag taxRate siteClamp houseCeiling discreetClass liftMinutes => Sys2Proof.Machine.execTariff tag taxRate siteClamp houseCeiling discreetClass liftMinutes s
  | .openStay tag number ceiling credit discount pin => Sys2Proof.Machine.execOpenStay tag number ceiling credit discount pin s
  | .closeStay tag => Sys2Proof.Machine.execCloseStay tag s
  | .stayQuery tag => Sys2Proof.Machine.execStayQuery tag s
  | .ackCharges tag sequence => Sys2Proof.Machine.execAckCharges tag sequence s
  | .logRegion tag base slots => Sys2Proof.Machine.execLogRegion tag base slots s
  | .setCredit tag limit => Sys2Proof.Machine.execSetCredit tag limit s
  | .buy tag title => Sys2Proof.Machine.execBuy tag title s
  | .bind tag lane role service base slots => Sys2Proof.Machine.execBind tag lane role service base slots s
  | .unbind tag lane => Sys2Proof.Machine.execUnbind tag lane s
  | .unlock tag pin => Sys2Proof.Machine.execUnlock tag pin s
  | .relock tag => Sys2Proof.Machine.execRelock tag s
  | .setCeiling tag ceiling pin => Sys2Proof.Machine.execSetCeiling tag ceiling pin s
  | .changePin tag old new => Sys2Proof.Machine.execChangePin tag old new s
  | .queryTitle tag title => Sys2Proof.Machine.execQueryTitle tag title s
  | .restart tag => Sys2Proof.Machine.execRestart tag s
  | .unknown tag code => Sys2Proof.Machine.execUnknown tag code s
  | .reportTake => Sys2Proof.Machine.execReportTake s
  | .reportWriteComplete => Sys2Proof.Machine.execReportWriteComplete s
  | .logWriteBegin => Sys2Proof.Machine.execLogWriteBegin s
  | .logWriteComplete => Sys2Proof.Machine.execLogWriteComplete s
  | .secondsTick => Sys2Proof.Machine.execSecondsTick s
  | .previewEnd => Sys2Proof.Machine.execPreviewEnd s
  | .rentalLapsed => Sys2Proof.Machine.execRentalLapsed s
  | .liftExpired => Sys2Proof.Machine.execLiftExpired s
  | .lockoutEnded => Sys2Proof.Machine.execLockoutEnded s
  | .enterRetain passed => Sys2Proof.Machine.execEnterRetain passed s
  | .supplyRecover => Sys2Proof.Machine.execSupplyRecover s
  | .supplyRelapse => Sys2Proof.Machine.execSupplyRelapse s
  | .enterRun changed => Sys2Proof.Machine.execEnterRun changed s
  | .powerOn => Sys2Proof.Machine.execPowerOn s
  | .resetAssert passed => Sys2Proof.Machine.execResetAssert passed s
  | .resetRelease => Sys2Proof.Machine.execResetRelease s
  | .supplySample millivolts => Sys2Proof.Machine.execSupplySample millivolts s
  | .houseAccessDiscarded => Sys2Proof.Machine.execHouseAccessDiscarded s
  | .retainedStoreDecay => Sys2Proof.Machine.execRetainedStoreDecay s

end Sys2Proof.Machine
end

