-- ==== Sys2Proof/Machine/Step.lean ====
section
/-! DEFINITION. One step: the command at the front of the queue, or a reference clock period on an empty queue. -/

namespace Sys2Proof.Machine

/-- One step. The command at the front of the queue is executed with the rest of the queue behind it. On an empty queue one
period of the reference clock passes (DESIGN CHOICE, log entry 7). -/
def step (s : State) : Host.Outcome State Fault Refusal :=
  match s.pending with
  | [] => .next (clockPeriod s)
  | c :: rest => exec c { s with pending := rest }

end Sys2Proof.Machine

/-- The state with the command that a word spells put at the front of its queue; unchanged where the word spells none. -/
def Sys2Proof.Machine.State.withFetchWord (s : Sys2Proof.Machine.State) (nbits w : Nat) : Sys2Proof.Machine.State :=
  match Sys2Proof.decodeTableWord nbits w with
  | some c => { s with pending := c :: s.pending }
  | none => s
end

