-- ==== Sys2Proof/Safety.lean ====
section
/-! DEFINITION. What a safe state of the part is: the invariants that the manual states of its blocks, each kept by every step
and true at reset. -/

namespace Sys2Proof.Machine

/-- The part stands ready to take a command of the command ring: no tick is in progress, the part works, and the fetch that
holds the store port reads a record that carries the command (R143). -/
def State.takes (s : State) (c : Instr) : Prop := s.tick = TickWork.none ∧ s.fetchReady c = true

/-- A command of the command ring completes: its owner leaves the state `u` and answers `a`, and the fetch finishes (R143). -/
def Answers (c : Instr) (tag : Word) (code : Byte) (s u : State) (a : Answer) : Prop :=
  exec c s = .next (u.finishFetch tag code a)

/-- A command of the command ring completes and changes nothing but to answer `a`. -/
def Declines (c : Instr) (tag : Word) (code : Byte) (s : State) (a : Answer) : Prop := Answers c tag code s s a

/-- The store is in its canonical form. -/
def StoreSafe (s : State) : Prop := Memory.wf s.store = true

/-- An agent's work is in progress: a fetch, a report write or a LOG write (R124, R142, R146). -/
def State.inWork (s : State) : Agent → Bool
  | .command => s.fetch.isSome
  | .report => s.reportWrite.isSome
  | .log => s.charges.write.isSome

/-- The house agent whose access holds the store port and is no orphan has its work in progress and no request waiting
(section 1.5: each agent has at most one request outstanding). -/
def State.holderSafe (s : State) : Bool :=
  match s.port with
  | .house a _ _ false => s.inWork a && !s.requests.has a
  | _ => true

/-- The store arbiter's items (R13): the wait count is 0 to 4, and 0 with no house request waiting; the rotation order holds
the three agents; a request that waits has its work in progress. -/
def ArbiterSafe (s : State) : Prop :=
  s.waitCount ≤ 4 ∧ (s.requests.any = false → s.waitCount = 0) ∧ s.rotation.Perm Agent.restartOrder ∧
    (∀ a, s.requests.has a = true → s.inWork a = true) ∧ s.holderSafe = true

/-- MEDIA holds the store port exactly while a media transaction is in its data phase, and a command phase stands at the media
port untaken only behind a transaction in flight (R1). -/
def PortSafe (s : State) : Prop :=
  (s.port = .media ↔ s.media.map MediaTxn.phase = some .data) ∧ (s.nextPhase.isSome = true → s.media.isSome = true)

/-- The attention line stands exactly under its condition (R151). -/
def AttentionSafe (s : State) : Prop := s.attention = s.attentionDue

/-- The pending queue holds at most 16 reports (R145) and the refused list at most 16 numbers (R68). -/
def QueueSafe (s : State) : Prop := s.reports.length ≤ 16 ∧ s.refused.length ≤ 16

/-- The records with the written flag set form the head of the list (R119). -/
def writtenFirst : List ChargeItem → Bool
  | [] => true
  | i :: rest => if i.written then writtenFirst rest else rest.all (fun j => !j.written)

/-- What the list holds in each stay state (R111, R113, R119, R121). -/
def ChargeUnit.fits (c : ChargeUnit) : StayState → Prop
  | .vacant => c.lastIssued = 0
  | .occupied => c.list.all ChargeItem.isPurchase = true ∧ c.list.length ≤ 15 ∧ c.lastIssued ≤ 2 ^ 32 - 2
  | .closing =>
    c.list.dropLast.all ChargeItem.isPurchase = true ∧ c.list.dropLast.length ≤ 15 ∧
      c.list.getLast?.map ChargeItem.isPurchase = some false ∧ c.lastIssued ≤ 2 ^ 32 - 1

/-- The charge list (R119): exactly the records from acknowledged + 1 to last issued, in order; at most 15 PURCHASE records and
the CLOSE record last; written records first; a LOG write still listed is that of the oldest unwritten record (R124). -/
def ChargeListSafe (s : State) : Prop :=
  s.charges.acknowledged ≤ s.charges.lastIssued ∧
    s.charges.list.map (fun i => i.record.sequence) =
      List.range' (s.charges.acknowledged + 1) (s.charges.lastIssued - s.charges.acknowledged) ∧
    s.charges.fits s.stay.state ∧ writtenFirst s.charges.list = true ∧
    (∀ w, s.charges.write = some w → w.listed = true → s.charges.nextUnwritten = some w.record)

/-- The spent amount never exceeds the credit limit of an open stay (R114). -/
def CreditSafe (s : State) : Prop := s.stay.state ≠ .vacant → s.spent ≤ s.stay.credit

/-- The lock unit, the stay's ceiling and the tariff (section 6.2, R83, R84, R88, R129, R130): each item in its range; a lift
stands only in OCCUPIED; no PIN, try or lockout stands in VACANT; the try count is 0 during a lockout. -/
def LockSafe (s : State) : Prop :=
  s.lock.tries ≤ 2 ∧ s.lock.lockout ≤ 900 ∧ s.lock.lift ≤ 14400 ∧ (0 < s.lock.lift → s.stay.state = .occupied) ∧
    (0 < s.lock.lockout → s.lock.tries = 0) ∧
    (s.stay.state = .vacant →
      s.lock.pin = none ∧ s.lock.tries = 0 ∧ s.lock.lockout = 0 ∧ s.stay.ceiling = 0 ∧ s.stay.credit = 0 ∧
        s.stay.discount = 0) ∧
    s.stay.ceiling ≤ s.tariff.siteClamp ∧ s.tariff.siteClamp ≤ 7 ∧ s.tariff.houseCeiling ≤ s.tariff.siteClamp ∧
    1 ≤ s.tariff.liftMinutes ∧ s.tariff.liftMinutes ≤ 240 ∧ s.tariff.taxRate ≤ 3000 ∧ s.tariff.discreetClass ≤ 8 ∧
    s.stay.credit ≤ 1000000 ∧ s.stay.discount ≤ 90 ∧ s.stay.seconds ≤ 2 ^ 32 - 1

/-- A title entry's fields (R64, R66, R72): terms in range; OFFERED with preview used 0; PREVIEW below its limit; in an open stay
an OFFERED entry has a preview allowance; in a vacant room every entry is OFFERED (R80). -/
def TitleEntry.fits (e : TitleEntry) (y : StayState) : Prop :=
  e.number ≠ 0 ∧ e.rating ≤ 7 ∧ e.price ≤ 65535 ∧ e.limit ≤ 900 ∧ 1 ≤ e.hours ∧ e.hours ≤ 72 ∧ e.used ≤ e.limit ∧
    (e.state = .offered → e.used = 0) ∧ (e.state = .preview → e.used < e.limit) ∧
    (e.state = .offered → y ≠ .vacant → 1 ≤ e.limit) ∧ (y = .vacant → e.state = .offered)

/-- The title table (R65): at most 32 entries, no two of one number, none numbered 0, each in range. -/
def TitleSafe (s : State) : Prop :=
  s.titles.length ≤ 32 ∧ (s.titles.map TitleEntry.number).Nodup ∧ ∀ e ∈ s.titles, e.fits s.stay.state

/-- A lane (section 2.2): an unbound one holds only initial values; a bound one has a slice with one entry per slot and a ring
in the store on 128-byte slots; its counts are below the values that change its alignment (section 2.4). -/
def Lane.fits (l : Lane) : Prop :=
  l.good ≤ 1 ∧ l.bad ≤ 2 ∧
    (∀ a, l.assembly = some a → a.words.length = 31) ∧
    match l.binding with
    | none => l = Lane.unbound
    | some b =>
      l.slice.length = b.slots ∧ b.base % 128 = 0 ∧ 16 ≤ b.slots ∧ b.slots ≤ 1024 ∧
        b.base + b.slots * 128 ≤ Config.storeSize

/-- The directory entries that a lane holds. -/
def Lane.held (l : Lane) : Nat :=
  match l.binding with
  | some b => b.slots
  | none => 0

/-- The lanes (R17, R20): each fits; their entries total at most 2,048; at most one has the role MAIN. -/
def LaneSafe (s : State) : Prop :=
  (∀ n, (s.lanes.get n).fits) ∧ (four.map (fun n => (s.lanes.get n).held)).sum ≤ 2048 ∧
    (four.filter s.laneIsMain).length ≤ 1

/-- How many bound lanes are bound to a service. -/
def State.lanesOn (s : State) (service : Byte) : Nat := (four.filter (fun n => s.laneService n == some service)).length

/-- The service slots (R47): no two in use hold one service; each in use counts the lanes bound to its service, at least one; and
each bound lane's service has a slot. -/
def SlotSafe (s : State) : Prop :=
  (∀ i j v w, s.slots.get i = some v → s.slots.get j = some w → v.service = w.service → i = j) ∧
    (∀ i v, s.slots.get i = some v → v.refs = s.lanesOn v.service ∧ 1 ≤ v.refs) ∧
    ∀ n b, (s.lanes.get n).binding = some b → (s.slotIndex b.service).isSome = true

/-- Every range of the store that the part uses for its own purposes: the anchor block, the lane rings, the open command and
report rings and the log regions. -/
def State.extents (s : State) : List Extent :=
  anchorExtent :: laneExtents s.lanes ++ s.commandRing.extents ++ s.reportRing.extents ++ logExtents s.charges

/-- No two of those ranges share a byte, and each lies in the store (R2, R3, R10, R17, R122). -/
def GeometrySafe (s : State) : Prop :=
  s.extents.Pairwise (fun a b => overlaps a b = false) ∧ ∀ e ∈ s.extents, e.1 + e.2 ≤ Config.storeSize

/-- The supply watch (section 11.1, R154, R155): the filter counts are below the values that change the state; no check word is
held in RUN; outside RUN no tick and no LOG write is in progress. -/
def SupplySafe (s : State) : Prop :=
  match s.supply with
  | .run low => low ≤ 31 ∧ s.checkWord = none
  | .retain => s.tick = TickWork.none ∧ s.charges.write = none
  | .recover good => good ≤ 4095 ∧ s.tick = TickWork.none ∧ s.charges.write = none

/-- The part stands by its retained items: it is in RUN, or it holds a check word that agrees with them (R156). -/
def State.trusts (s : State) : Prop := s.inRun = true ∨ s.checkHolds = true

/-- What a decay leaves in the retained store is caught by the check word unless it leaves the store as it was. A decay that
alters the store and escapes the check word is what R157 grants a cyclic check of 32 bits. -/
def DecayCaught (s : State) : Prop :=
  ∀ rest, s.pending = .retainedStoreDecay :: rest →
    let t := s.decay (Config.decayedStore s.freeDraws)
    t.checkHolds = true → t.retained = s.retained

/-- A property of the retained items is kept by every step, where the part stands by them. -/
def KeptWhereTrusted (safe : State → Prop) : Prop :=
  ∀ s t, SupplySafe s → DecayCaught s → (s.trusts → safe s) → step s = .next t → t.trusts → safe t

/-- A property that every step keeps. -/
def KeptByStep (safe : State → Prop) : Prop := ∀ s t, safe s → step s = .next t → safe t

/-! ## Words that the statements use -/

/-- The number that `n` bytes of a record from byte `i` on spell, most significant first (00_scope.md, section 5). -/
def numberAt (record : List Byte) (i n : Nat) : Nat := ((record.drop i).take n).foldl (fun v b => v * 256 + b.toNat) 0

/-- Between two decisions of the arbiter requests arrive and none is withdrawn, and the arbiter's own items stand. -/
def Arrivals (s u : State) : Prop :=
  u.waitCount = s.waitCount ∧ u.rotation = s.rotation ∧ ∀ a, s.requests.has a = true → u.requests.has a = true

/-- Who holds the store port after a decision. -/
def grantedMedia (s : State) : Bool := decide (s.handOver.port = .media)

/-- A house agent is granted at a decision. -/
def grantedTo (a : Agent) (s : State) : Bool :=
  match s.handOver.port with
  | .house b _ _ false => b == a
  | _ => false

/-- What a PIN comparison does to UNLOCK, CHANGE_PIN and a raising SET_CEILING when it finds no match: the try count rises and the
result carries the tries left; the third wrong try starts a lockout of 900 with LOCKOUT_STARTED ahead of the result and returns the
try count to 0 (R86, R87). -/
def WrongTry (c : Instr) (tag : Word) (code : Byte) (s : State) : Prop :=
  (s.lock.tries < 2 →
    Answers c tag code s { s with lock := { s.lock with tries := s.lock.tries + 1 } }
      (.pinWrong, .triesLeft (2 - s.lock.tries))) ∧
  (2 ≤ s.lock.tries →
    Answers c tag code s ({ s with lock := { s.lock with tries := 0, lockout := 900 } }.raiseEvent (.lockoutStarted 900))
      (.pinWrong, .triesLeft 0))

end Sys2Proof.Machine
end

