-- ==== Sys2Proof/Certificates/Slice0/Obligations.lean ====
section
/-! DEFINITION. The statements about the model: the queue and reset, the media port, the anchor block and the arbiter, lanes and
notices, verdicts, the command ring, reports and the charge log, ticks, supply and restarts, and the invariants. -/

open Sys2Proof Sys2Proof.Machine

/-! ## The queue, the tick and reset -/

/-- The command at the front of the queue is executed with the rest of the queue behind it. -/
def Obligations.StepTakesTheFrontCommand : Prop :=
  ∀ (c : Instr) (rest : List Instr) (s : State), step { s with pending := c :: rest } = exec c { s with pending := rest }

/-- The model's choice of log entry 7: a step on an empty queue is one reference clock period (R138). With no tick in progress,
the tick count runs only while the part works, and the 32,768th period is a SECONDS_TICK. -/
def Obligations.EmptyQueueStepIsAClockPeriod : Prop :=
  ∀ s : State, s.pending = [] → s.tick = TickWork.none →
    (s.working = false → step s = .next s) ∧
    (s.working = true → s.tickCount + 1 ≠ 32768 → step s = .next { s with tickCount := s.tickCount + 1 }) ∧
    (s.working = true → s.tickCount + 1 = 32768 → step s = exec .secondsTick s)

/-- The model's choice of log entry 6: an event other than a step of the tick itself completes a tick in progress first, and a
completed tick has no work left (R138, R145). The completion does the work of the rows PREVIEW_END, RENTAL_LAPSED,
LIFT_EXPIRED and LOCKOUT_ENDED in one of the six orders of the three owners, none of it left out: the lift's and the lockout's
work is that of their rows, and the meter's is what it does up to its first step of its own, then its rows one after another
while any is left. The model's choice of log entry 5: a command of the command ring that the fetch holding the store port does
not carry leaves the state as it is. -/
def Obligations.EventsAreTakenWholeOrNotAtAll : Prop :=
  (∀ (c : Instr) (s : State), c ≠ .previewEnd → c ≠ .rentalLapsed → c ≠ .liftExpired → c ≠ .lockoutEnded →
     exec c s = exec c s.settle ∧ s.settle.tick = TickWork.none) ∧
  (∀ s : State, s.tick ≠ TickWork.none →
     let u := { s with freeDraws := s.freeDraws + 1 }
     s.settle ∈
       [u.settleMeter.settleLift.settleLockout, u.settleMeter.settleLockout.settleLift,
        u.settleLift.settleMeter.settleLockout, u.settleLift.settleLockout.settleMeter,
        u.settleLockout.settleMeter.settleLift, u.settleLockout.settleLift.settleMeter]) ∧
  (∀ u : State,
     (u.tick.lift = true → exec .liftExpired u = .next u.settleLift) ∧ (u.tick.lift = false → u.settleLift = u) ∧
     (u.tick.lockout = true → exec .lockoutEnded u = .next u.settleLockout) ∧
     (u.tick.lockout = false → u.settleLockout = u) ∧
     (u.runMeter.tick.meter = [] → u.settleMeter = u.runMeter) ∧
     (∀ v, u.previewEndStep = some v → exec .previewEnd u = .next v ∧ u.settleMeter = v.settleMeter) ∧
     (∀ v, u.previewEndStep = none → u.rentalLapsedStep = some v →
       exec .rentalLapsed u = .next v ∧ u.settleMeter = v.settleMeter) ∧
     (u.runMeter.tick.meter ≠ [] → u.previewEndStep ≠ none ∨ u.rentalLapsedStep ≠ none)) ∧
  (∀ (c : Instr) (s : State), (recordFields c).isSome = true → s.tick = TickWork.none → s.fetchReady c = false →
     exec c s = .next s)

/-- Every invariant holds at State.reset. That reset is the state after a COLD restart with an empty store is the model's choice
(log entries 1 and 2). -/
def Obligations.ResetIsSafe : Prop :=
  StoreSafe State.reset ∧ ArbiterSafe State.reset ∧ PortSafe State.reset ∧ AttentionSafe State.reset ∧
    QueueSafe State.reset ∧ ChargeListSafe State.reset ∧ CreditSafe State.reset ∧ LockSafe State.reset ∧
    TitleSafe State.reset ∧ LaneSafe State.reset ∧ SlotSafe State.reset ∧ GeometrySafe State.reset ∧ SupplySafe State.reset

/-! ## The media port, the anchor block and the arbiter (chapter 1) -/

/-- MEDIA_COMMAND_PHASE of a burst, taken by a working part with no transaction in flight: classified, and granted at once at a
free store port, where a lane ring read is judged, or waiting behind its holder (R1, R2, R13, R99). No command phase is
taken outside RUN or under the reset line (R6), nor while a transaction is in flight (R1): that one presented behind a
transaction in flight stands at the media port to be taken as that one completes is the model's choice of log entry 24
(DESIGN CHOICE), and that one which cannot be taken or stand there changes nothing that of log entry 5. What is no transaction
of the burst store bus stops (00_scope.md, section 3; the model's stops, log entry 16). MEDIA_RESUME: a held transaction asks for the store port
for its remaining words, and a resumed lane ring read whose binding has ended is not judged (R6, R5, R158). -/
def Obligations.MediaTransactionsAskForTheStorePort : Prop :=
  (∀ (dir : Direction) (addr : Word) (count : Nat) (s : State),
     inStore addr = true → isBurst addr count = true → s.tick = TickWork.none → s.media = none → s.working = true →
     let t := s.newTxn dir addr.toNat count
     (s.port = .free →
       exec (.mediaCommandPhase dir addr count) s =
         .next { s with
           presented := []
           port := .media
           media := some { t with phase := .data, judged := s.judgement t } }) ∧
     (s.port ≠ .free →
       exec (.mediaCommandPhase dir addr count) s = .next { s with presented := [], media := some t })) ∧
  (∀ (dir : Direction) (addr : Word) (count : Nat) (s : State),
     inStore addr = true → isBurst addr count = true → s.tick = TickWork.none →
     (s.working = false → exec (.mediaCommandPhase dir addr count) s = .next s) ∧
     (s.working = true → s.media.isSome = true →
       (s.nextPhase = none →
         exec (.mediaCommandPhase dir addr count) s = .next { s with nextPhase := some ⟨dir, addr.toNat, count⟩ }) ∧
       (s.nextPhase.isSome = true → exec (.mediaCommandPhase dir addr count) s = .next s))) ∧
  (∀ (dir : Direction) (addr : Word) (count : Nat) (s : State),
     (Config.storeSize ≤ addr.toNat → exec (.mediaCommandPhase dir addr count) s = .fault .addressOutsideStore) ∧
     (addr.toNat < Config.storeSize →
       (addr.toNat % 4 ≠ 0 ∨ count = 0 ∨ 64 < addr.toNat % 64 + 4 * count) →
       exec (.mediaCommandPhase dir addr count) s = .refused .notABurst)) ∧
  (∀ (s : State) (t : MediaTxn),
     s.tick = TickWork.none → s.working = true → s.media = some t → t.phase = .held →
     (s.port = .free →
       exec .mediaResume s =
         .next { s with
           port := .media
           media := some { t with phase := .data, judged := s.judgement { t with phase := .waiting } } }) ∧
     (s.port ≠ .free → exec .mediaResume s = .next { s with media := some { t with phase := .waiting } }) ∧
     (t.bound = false → s.judgement { t with phase := .waiting } = none))

/-- Every word of a burst has the class of its address: a burst lies wholly in one lane ring, in the anchor block, or outside
both. An address below 64 is the anchor block's, one inside the ring of a bound lane and of no other is that lane's, and any other
is plain; a transaction just taken has that class, no word passed, and, in a lane ring, the lane's binding standing (R2, R5). The
judgement made at the grant: a read in a lane ring whose binding stands is judged on the entry, as it then stands, of the slot that
its address falls in, as a read that carries payload unless it is the header word alone; no other transaction is judged (R27,
R99). -/
def Obligations.ABurstFallsInOneClass : Prop :=
  (∀ (s : State) (addr : Word) (count i : Nat), LaneSafe s → isBurst addr count = true → i < count →
    s.classify (addr.toNat + 4 * i) = s.classify addr.toNat) ∧
  (∀ (s : State) (a : Nat),
    let inside := fun n : Fin 4 => ∃ b, (s.lanes.get n).binding = some b ∧ b.base ≤ a ∧ a < b.base + b.slots * 128
    (a < 64 → s.classify a = .anchor) ∧
    (∀ n, 64 ≤ a → inside n → (∀ m, inside m → m = n) → s.classify a = .lane n) ∧
    (64 ≤ a → (∀ n, ¬ inside n) → s.classify a = .plain) ∧
    ∀ (dir : Direction) (count : Nat),
      let t := s.newTxn dir a count
      t.dir = dir ∧ t.addr = a ∧ t.count = count ∧ t.passed = 0 ∧ t.cls = s.classify a ∧ t.phase = .waiting ∧ t.judged = none ∧
      (t.bound = true ↔ ∃ n, t.cls = .lane n)) ∧
  (∀ (s : State) (t : MediaTxn),
    (∀ n b e, t.dir = .read → t.cls = .lane n → t.bound = true → (s.lanes.get n).binding = some b →
      (s.lanes.get n).slice[(t.addr - b.base) / 128]? = some e →
      s.judgement t = some (s.judge b e (decide (¬ (t.addr % 128 = 0 ∧ t.count = 1))))) ∧
    (t.dir = .write ∨ t.bound = false ∨ (∀ n, t.cls = .lane n → (s.lanes.get n).binding = none) → s.judgement t = none))

/-- MEDIA_TRANSACTION_COMPLETE: the transaction is over, the media port takes the command phase that stands behind it, classified
now, and the arbiter decides the next grant with that transaction waiting (R1, R2, R13, the example of section 1.5; that the
command phase was presented ahead of the completion is the form of log entry 24). The model's choice of log entry 8 (DESIGN CHOICE, unsafe), which the manual does not say: the words of a plain transaction and of an anchor read have
no row of their own, and those still to pass now pass all together, in ascending order, written words to the store and read
words to the media port. A transaction whose words have their own rows completes when none is left. -/
def Obligations.AMediaTransactionCompletes : Prop :=
  ∀ (s : State) (t : MediaTxn) (words : List WriteWord),
    s.tick = TickWork.none → s.working = true → s.media = some t → s.port = .media → t.phase = .data →
    let next := s.nextPhase.map (fun p => s.newTxn p.dir p.addr p.count)
    (t.wordByWord = true → t.left = 0 →
      exec (.mediaTransactionComplete words) s = .next { s with media := next, nextPhase := none }.handOver) ∧
    (t.wordByWord = false → t.dir = .write → words.length = t.left →
      exec (.mediaTransactionComplete words) s =
          .next { s with
            media := next
            nextPhase := none
            store := Memory.writeWords s.store t.nextAddr words }.handOver ∧
        ∀ b, (b < t.nextAddr ∨ t.nextAddr + 4 * t.left ≤ b) →
          Memory.read (Memory.writeWords s.store t.nextAddr words) b = Memory.read s.store b) ∧
    (t.wordByWord = false → t.dir = .read →
      exec (.mediaTransactionComplete words) s =
        .next { s with
          media := next
          nextPhase := none
          presented := s.presented ++ (List.range t.left).map (fun i => s.readWord t.cls (t.nextAddr + 4 * i)) }.handOver)

/-- A plain read returns the store. An anchor read returns the part's heads and part word from the part, a head reading 0 while
its ring is not OPEN, and every other word from the store (R3, R8). The part word carries the family code and the states by the
codes of section 12.3 (R9). -/
def Obligations.TheAnchorBlockReadsThePartsOwnWords : Prop :=
  ∀ (s : State) (a : Nat),
    s.readWord .plain a = Memory.readWord s.store a ∧
    (∀ base n h, s.commandRing = .inForce base n h → s.readWord .anchor 12 = BitVec.ofNat 32 h) ∧
    (s.commandRing = .closed ∨ s.commandRing = .badGeometry → s.readWord .anchor 12 = 0) ∧
    (∀ base n h, s.reportRing = .inForce base n h → s.readWord .anchor 44 = BitVec.ofNat 32 h) ∧
    (s.reportRing = .closed ∨ s.reportRing = .badGeometry → s.readWord .anchor 44 = 0) ∧
    (a ≠ 12 → a ≠ 44 → a ≠ 16 → s.readWord .anchor a = Memory.readWord s.store a) ∧
    byteOf (s.readWord .anchor 16) 0 = 0x4E ∧
    byteOf (s.readWord .anchor 16) 1 = (match s.supply with
      | .run _ => 0
      | .retain => 1
      | .recover _ => 2) ∧
    byteOf (s.readWord .anchor 16) 2 = (match s.stay.state with
      | .vacant => 0
      | .occupied => 1
      | .closing => 2) ∧
    (byteOf (s.readWord .anchor 16) 3).extractLsb' 4 4 = (match s.commandRing with
      | .closed => 0
      | .inForce _ _ _ => 1
      | .badGeometry => 2) ∧
    (byteOf (s.readWord .anchor 16) 3).extractLsb' 0 4 = (match s.reportRing with
      | .closed => 0
      | .inForce _ _ _ => 1
      | .badGeometry => 2)

/-- A written anchor word passes to the store, its masked bytes not written. A base word and a tail word replace the unmasked
bytes of their latches; the attention line follows the report tail; a word of the part and an unused word reach the store
only; and a word with all bytes masked changes no latch and starts no action (R7, R12, R151). -/
def Obligations.AWrittenAnchorWordPasses : Prop :=
  ∀ (s : State) (t : MediaTxn) (w : WriteWord),
    s.tick = TickWork.none → s.wordTxn .write = some t → t.cls = .anchor →
    let p := { s with store := Memory.writeWord s.store t.nextAddr w, media := some { t with passed := t.passed + 1 } }
    (∀ b, (b < t.nextAddr ∨ t.nextAddr + 4 ≤ b) → Memory.read p.store b = Memory.read s.store b) ∧
    (StoreSafe s → ∀ i, i < 4 →
      Memory.read p.store (t.nextAddr + i) =
        if w.masked i then Memory.read s.store (t.nextAddr + i) else byteOf w.data i) ∧
    (∀ (old : Word) (i : Nat), i < 4 → byteOf (mergeWord old w) i = if w.masked i then byteOf old i else byteOf w.data i) ∧
    (w.allMasked = true →
      (ownBehaviour t.nextAddr = false → exec (.anchorWrite w) s = .next p) ∧
      (t.nextAddr = 4 → exec (.commandRingSlots w) s = .next p) ∧
      (t.nextAddr = 36 → exec (.reportRingSlots w) s = .next p) ∧
      (t.nextAddr = 8 → exec (.commandTail w) s = .next p) ∧
      (t.nextAddr = 40 → exec (.reportTail w) s = .next p)) ∧
    (w.allMasked = false →
      (t.nextAddr = 0 →
        exec (.anchorWrite w) s =
          .next { p with anchor := { s.anchor with commandBase := mergeWord s.anchor.commandBase w } }) ∧
      (t.nextAddr = 32 →
        exec (.anchorWrite w) s =
          .next { p with anchor := { s.anchor with reportBase := mergeWord s.anchor.reportBase w } }) ∧
      (ownBehaviour t.nextAddr = false → t.nextAddr ≠ 0 → t.nextAddr ≠ 32 → exec (.anchorWrite w) s = .next p) ∧
      (t.nextAddr = 8 →
        exec (.commandTail w) s =
          .next { p with anchor := { s.anchor with commandTail := mergeWord s.anchor.commandTail w } }) ∧
      (t.nextAddr = 40 →
        let q := { p with anchor := { s.anchor with reportTail := mergeWord s.anchor.reportTail w } }
        exec (.reportTail w) s = .next { q with attention := q.attentionDue }))

/-- COMMAND_RING_SLOTS: the latched count is replaced, and the ring opens with head 0 exactly when the seven conditions of R10
hold, else it is BAD_GEOMETRY. A waiting fetch is withdrawn, which returns the wait count to 0 when no other request waits;
a fetch that holds the store port cannot meet this row, since MEDIA holds it (R10, R11, R13). -/
def Obligations.TheCommandRingOpens : Prop :=
  ∀ (s : State) (t : MediaTxn) (w : WriteWord),
    s.tick = TickWork.none → s.wordTxn .write = some t → t.cls = .anchor → t.nextAddr = 4 → w.allMasked = false →
    let n := mergeWord s.anchor.commandSlots w
    let b := s.anchor.commandBase
    let e := ringExtent b.toNat n.toNat 32
    let valid := b.toNat % 32 = 0 ∧ 4 ≤ n.toNat ∧ n.toNat ≤ 256 ∧ b.toNat + n.toNat * 32 ≤ Config.storeSize ∧ 64 ≤ b.toNat ∧
      (∀ x ∈ laneExtents s.lanes ++ logExtents s.charges ++ s.reportRing.extents, overlaps e x = false)
    ∃ ring, (valid → ring = .inForce b.toNat n.toNat 0) ∧ (¬ valid → ring = .badGeometry) ∧
      exec (.commandRingSlots w) s =
        .next { s with
          anchor := { s.anchor with commandSlots := n }
          commandRing := ring
          store := Memory.writeWord s.store 4 w
          media := some { t with passed := t.passed + 1 }
          fetch := if s.requests.command then none else s.fetch
          requests := { s.requests with command := false }
          waitCount := if s.requests.command && !(s.requests.report || s.requests.log) then 0 else s.waitCount }

/-- REPORT_RING_SLOTS: the ring opens by the conditions of R10 with head 0. A waiting report write is withdrawn and its report
returns to the head of the queue; a ring that becomes OPEN while causes are held and no RESTARTED is in the queue has
RESTARTED placed first, with LIFT_ENDED (RESTART) behind it when the lift mark is set and none is in the queue; a report placed
at the head of a queue of 16 drops the one at its tail and sets the overflow mark; and the attention line follows. A report
write that holds the store port cannot meet this row, since MEDIA holds it (R10, R11, R12, R145, R147, R149, R151). -/
def Obligations.TheReportRingOpens : Prop :=
  ∀ (s : State) (t : MediaTxn) (w : WriteWord),
    s.tick = TickWork.none → s.wordTxn .write = some t → t.cls = .anchor → t.nextAddr = 36 → w.allMasked = false →
    s.requests.report = s.reportWrite.isSome → s.reports.length ≤ 16 →
    let n := mergeWord s.anchor.reportSlots w
    let b := s.anchor.reportBase
    let e := ringExtent b.toNat n.toNat 32
    let valid := b.toNat % 32 = 0 ∧ 4 ≤ n.toNat ∧ n.toNat ≤ 256 ∧ b.toNat + n.toNat * 32 ≤ Config.storeSize ∧ 64 ≤ b.toNat ∧
      (∀ x ∈ laneExtents s.lanes ++ logExtents s.charges ++ s.commandRing.extents, overlaps e x = false)
    let withdrawn := (s.reportWrite.map ReportWrite.report).toList ++ s.reports
    let queue := withdrawn.take 16
    let lift : List Report :=
      if s.liftMark && !queue.any Report.isLiftRestart then [⟨.event (.liftEnded .restart), false⟩] else []
    let lifted := (lift ++ queue).take 16
    let restarted : List Report :=
      if s.causes.any && !lifted.any Report.isRestarted then [⟨.event (.restarted s.causes), false⟩] else []
    ∃ ring reports overflow attention,
      (valid → ring = .inForce b.toNat n.toNat 0 ∧ reports = (restarted ++ lifted).take 16 ∧
        overflow =
          (s.overflow || decide (16 < withdrawn.length) || decide (16 < (lift ++ queue).length) ||
            decide (16 < (restarted ++ lifted).length)) ∧
        attention = decide (0 ≠ s.anchor.reportTail.toNat % n.toNat)) ∧
      (¬ valid → ring = .badGeometry ∧ reports = queue ∧ overflow = (s.overflow || decide (16 < withdrawn.length)) ∧
        attention = false) ∧
      exec (.reportRingSlots w) s =
        .next { s with
          anchor := { s.anchor with reportSlots := n }
          reportRing := ring
          reports := reports
          overflow := overflow
          attention := attention
          store := Memory.writeWord s.store 36 w
          media := some { t with passed := t.passed + 1 }
          reportWrite := none
          requests := { s.requests with report := false }
          waitCount := if s.requests.report && !(s.requests.command || s.requests.log) then 0 else s.waitCount }

/-- The freed store port goes by R13: to MEDIA when no house request waits; to MEDIA with the wait count raised while it is
below 4; else to the waiting house agent first in the rotation order, which moves to its end with the wait count back at 0;
and it stays free when nothing waits. A house request at a free port is granted at once, and the withdrawal of the last one
waiting returns the wait count to 0. A hand-over changes nothing but the arbiter's own items and the phase and judgement of
the media transaction. -/
def Obligations.TheArbiterHandsOnThePort : Prop :=
  (∀ s : State, s.working = true →
    (s.mediaWaits = true → s.requests.any = false → s.rotation.Perm Agent.restartOrder → s.handOver = s.grantMedia) ∧
    (∀ a, s.mediaWaits = true → s.firstWaiting = some a → s.waitCount < 4 →
      s.handOver = { s.grantMedia with waitCount := s.waitCount + 1 }) ∧
    (∀ a, (s.mediaWaits = true → s.waitCount = 4) → s.firstWaiting = some a →
      s.handOver = { s.grantHouse a with waitCount := 0 }) ∧
    (s.mediaWaits = false → s.requests.any = false → s.handOver = { s with port := .free }) ∧
    (∀ a, s.port = .free → s.request a = s.grantHouse a) ∧
    (∀ a, s.port ≠ .free → s.request a = { s with requests := s.requests.put a true })) ∧
  (∀ (s : State) (a : Agent), (s.requests.put a false).any = false → (s.withdraw a).waitCount = 0) ∧
  (∀ (s : State) (a : Agent), s.rotation.Perm Agent.restartOrder →
    (s.grantHouse a).rotation.Perm Agent.restartOrder ∧ (s.grantHouse a).rotation.getLast? = some a) ∧
  (∀ s : State,
    let t := s.handOver
    t = { s with port := t.port, media := t.media, requests := t.requests, waitCount := t.waitCount, rotation := t.rotation } ∧
    ∀ m, t.media = some m → ∃ u, s.media = some u ∧ m = { u with phase := m.phase, judged := m.judged })

/-- A house request waits through at most 12 media grants and 2 grants to other house agents, and a media transaction that waits
behind a house access is granted when that access frees the port (R14). -/
def Obligations.EveryWaitIsBounded : Prop :=
  (∀ (s : Nat → State) (a : Agent),
    (s 0).waitCount ≤ 4 → (s 0).rotation.Perm Agent.restartOrder → (s 0).requests.has a = true →
    (∀ i, (s i).working = true) → (∀ i, Arrivals (s i).handOver (s (i + 1))) →
    ∃ k, grantedTo a (s k) = true ∧
      ((List.range k).filter (fun i => grantedMedia (s i))).length ≤ 12 ∧
      ((List.range k).filter (fun i => !grantedMedia (s i))).length ≤ 2 ∧
      ∀ i < k, (s i).handOver.port ≠ .free) ∧
  (∀ (s u : State) (a : Agent), s.working = true → u.working = true → grantedTo a s = true →
    u.waitCount = s.handOver.waitCount → u.mediaWaits = true → u.handOver.port = .media)

/-! ## Lanes, notices and service slots (chapters 2, 3 and 5) -/

/-- HEADER_WRITE and PAYLOAD_WRITE: the word passes to the store at its address with its masked bytes not written and nothing
else of the store changed. While the transaction's binding stands it is handed to the lane engine; when the binding has
ended nothing but the store and the transaction changes. A header word with all bytes masked is no header write; any other
replaces the lane by what AHeaderWriteMovesTheLane states, with LANE_LOCKED or LANE_LOST at its move (R4, R5, R16, R21, R22,
R26). -/
def Obligations.ALaneRingWritePasses : Prop :=
  ∀ (s : State) (t : MediaTxn) (n : Fin 4) (w : WriteWord),
    s.tick = TickWork.none → s.wordTxn .write = some t → t.cls = .lane n →
    let p := { s with store := Memory.writeWord s.store t.nextAddr w, media := some { t with passed := t.passed + 1 } }
    (∀ b, (b < t.nextAddr ∨ t.nextAddr + 4 ≤ b) → Memory.read p.store b = Memory.read s.store b) ∧
    (StoreSafe s → ∀ i, i < 4 →
      Memory.read p.store (t.nextAddr + i) =
        if w.masked i then Memory.read s.store (t.nextAddr + i) else byteOf w.data i) ∧
    (t.nextAddr % 128 = 0 → t.bound = true → exec (.headerWrite w) s = .next (p.takeHeader n t.nextAddr w)) ∧
    (t.nextAddr % 128 ≠ 0 → t.bound = true → exec (.payloadWrite w) s = .next (p.takePayload n t.nextAddr w)) ∧
    (t.bound = false →
      (t.nextAddr % 128 = 0 → exec (.headerWrite w) s = .next p) ∧
      (t.nextAddr % 128 ≠ 0 → exec (.payloadWrite w) s = .next p)) ∧
    (p.takeHeader n t.nextAddr w).store = p.store ∧ (p.takePayload n t.nextAddr w).store = p.store ∧
    (w.allMasked = true → p.takeHeader n t.nextAddr w = p) ∧
    (∀ b, (s.lanes.get n).binding = some b → w.allMasked = false →
      let m := (s.lanes.get n).header b (s.slotOf b.service) ((t.nextAddr - b.base) / 128) w
      (m.2 = .stays → p.takeHeader n t.nextAddr w = p.setLane n m.1) ∧
      (m.2 = .locked → p.takeHeader n t.nextAddr w = (p.setLane n m.1).raiseEvent (.laneLocked n b.service)) ∧
      (m.2 = .lost → p.takeHeader n t.nextAddr w = (p.setLane n m.1).raiseEvent (.laneLost n b.service)))

/-- The alignment state moves at a header write by the table of section 2.4: two good syncs in a row lock, three bad ones in a
row lose (R21, R22). What a header write leaves of a bound lane. A sync is good exactly by R16. A good sync in LOCKED forms
an entry from the header and the service slot, updates the reference, and opens the assembly for a CONTROL cell; any other
header write forms an entry of kind BAD and keeps the reference. Lost-before is set by an overrun, and in the first case
also by a continuity gap; an open assembly is torn; every other slot's entry, and the binding, stay (R16, R23, R24, R25,
R29, R30). Bits 7 and 6 of header byte 2 are the kind: 0 PICTURE, 1 CONTROL, else FILLER; bits 5 and 4 the scramble state: 1 EVEN,
2 ODD, else CLEAR (R16, section 12.1). -/
def Obligations.AHeaderWriteMovesTheLane : Prop :=
  (∀ l : Lane,
     (l.alignment = .hunt → l.good = 0 → l.align true = ({ l with good := 1 }, .stays)) ∧
     (l.alignment = .hunt → l.good = 1 →
       l.align true = ({ l with alignment := .locked, good := 0, bad := 0 }, .locked)) ∧
     (l.alignment = .hunt → l.align false = ({ l with good := 0 }, .stays)) ∧
     (l.alignment = .locked → l.align true = ({ l with bad := 0 }, .stays)) ∧
     (l.alignment = .locked → l.bad = 0 → l.align false = ({ l with bad := 1 }, .stays)) ∧
     (l.alignment = .locked → l.bad = 1 → l.align false = ({ l with bad := 2 }, .stays)) ∧
     (l.alignment = .locked → l.bad = 2 → l.align false = ({ l with alignment := .hunt, good := 0, bad := 0 }, .lost))) ∧
  (∀ (l : Lane) (b : Binding) (v : ServiceSlot) (slot : Nat) (w : WriteWord),
     let m := (l.header b v slot w).1
     let good := w.masked 0 = false ∧ w.masked 1 = false ∧ w.masked 2 = false ∧ byteOf w.data 0 = 0xB5 ∧
       byteOf w.data 1 = b.service
     let continuity := (byteOf w.data 2).extractLsb' 0 4
     let overrun := decide ((l.entry slot).state = .written)
     (good → l.alignment = .locked →
       m.slice = l.slice.set slot
         { state := .written, kind := headerKind (byteOf w.data 2), scramble := headerScramble (byteOf w.data 2)
           epoch := v.epoch, keyed := v.current.valid, title := v.title, rating := v.rating, pay := v.pay
           continuity := continuity
           lostBefore := overrun || match l.reference with
             | some r => decide (continuity ≠ r + 1)
             | none => false } ∧
       m.reference = some continuity ∧
       (headerKind (byteOf w.data 2) = .control → m.assembly = some ⟨slot, List.replicate 31 none⟩) ∧
       (headerKind (byteOf w.data 2) ≠ .control → m.assembly = none)) ∧
     (¬ good ∨ l.alignment = .hunt →
       m.slice = l.slice.set slot
         { state := .written, kind := .bad, scramble := .clear, epoch := 0, keyed := false, title := 0, rating := 0
           pay := false, continuity := 0, lostBefore := overrun } ∧
       m.reference = l.reference ∧ m.assembly = none) ∧
     m.binding = l.binding ∧
     m.alignment = (l.align (decide good)).1.alignment ∧ m.good = (l.align (decide good)).1.good ∧
     m.bad = (l.align (decide good)).1.bad ∧ (l.header b v slot w).2 = (l.align (decide good)).2) ∧
  (∀ x : Byte,
     headerKind x = (if x.toNat / 64 = 0 then .picture else if x.toNat / 64 = 1 then .control else .filler) ∧
     headerScramble x = (if x.toNat / 16 % 4 = 1 then .even else if x.toNat / 16 % 4 = 2 then .odd else .clear))

/-- A payload word written to a lane ring changes no directory entry, no alignment and no continuity reference, and with the
assembly buffer closed nothing at all. With the assembly open for its slot, a whole word is placed, and the last of the 31 hands
the 124 bytes to the service slot and closes the buffer; a masked word, or one of another slot, is not gathered (R26, R29,
R31). -/
def Obligations.APayloadWordFeedsTheAssembly : Prop :=
  ∀ (s : State) (n : Fin 4) (addr : Nat) (w : WriteWord),
    ((s.lanes.get n).assembly = none → s.takePayload n addr w = s) ∧
    ((s.lanes.get n).binding = none → s.takePayload n addr w = s) ∧
    (∀ b a, (s.lanes.get n).binding = some b → (s.lanes.get n).assembly = some a →
      let filled := a.words.set (payloadIndex addr) (some w.data)
      (a.slot = b.slotAt addr → w.whole = true → none ∈ filled →
        s.takePayload n addr w = s.setLane n { s.lanes.get n with assembly := some { a with words := filled } }) ∧
      (a.slot = b.slotAt addr → w.whole = true → ∀ ws, filled = ws.map some →
        s.takePayload n addr w =
          (s.setLane n { s.lanes.get n with assembly := none }).applyNotice b.service (ofWords ws)) ∧
      (a.slot ≠ b.slotAt addr ∨ w.whole = false → s.takePayload n addr w = s)) ∧
    (∀ m, ((s.takePayload n addr w).lanes.get m).slice = (s.lanes.get m).slice ∧
      ((s.takePayload n addr w).lanes.get m).alignment = (s.lanes.get m).alignment ∧
      ((s.takePayload n addr w).lanes.get m).reference = (s.lanes.get m).reference)

/-- A notice that fails a test of R35 changes nothing, and nothing reports it; a valid one acts on the service slot of its
service alone, by its kind (R31, R34, R35, section 12.2). An accepted WORD notice unwraps its four values under the site key
at positions 0x800000 + w × 4 + i, makes the old current pair the previous one, makes the unwrapped pair current and valid,
and advances the epoch; a repeat of the current word number changes nothing; the slot's title fields stay in both (R42, R43,
R44, R60). The CRC starts at 0xFFFF and takes the bits of each byte from the most significant on: the register's top bit combined
with the bit says whether the register, shifted toward its top, is combined with 0x1021 (R36). -/
def Obligations.NoticesAreTestedAndWordsRotate : Prop :=
  (∀ (s : State) (service : Byte) (p : List Byte),
     let kind := noticeByte p 0
     let len := (noticeByte p 1).toNat
     (((kind ≠ 1 ∧ kind ≠ 2) ∨ 120 < len ∨ (kind = 1 ∧ len ≠ 8) ∨ (kind = 2 ∧ len ≠ 18) ∨
         noticeHalf p (2 + len) ≠ noticeCrc (p.take (2 + len))) →
       s.applyNotice service p = s) ∧
     (∀ i v, s.slotIndex service = some i → s.slots.get i = some v → len ≤ 120 →
       noticeHalf p (2 + len) = noticeCrc (p.take (2 + len)) →
       (kind = 1 → len = 8 → s.applyNotice service p = s.titleNotice i (titleTerms p)) ∧
       (kind = 2 → len = 18 →
         s.applyNotice service p =
           s.setSlot i (some (v.word s.siteKey (noticeHalf p 2) (noticeWord p 4) (noticeWord p 8) (noticeWord p 12)
             (noticeWord p 16)))))) ∧
  (∀ (v : ServiceSlot) (key : BitVec 64) (w : BitVec 16) (eh el oh ol : Word),
     (v.current.valid = true ∧ v.current.number = w → v.word key w eh el oh ol = v) ∧
     (¬ (v.current.valid = true ∧ v.current.number = w) →
       let k := fun i => keystream key v.service (BitVec.ofNat 24 (0x800000 + w.toNat * 4 + i))
       v.word key w eh el oh ol =
         { v with
           previous := v.current
           current :=
             { even := be64 (eh ^^^ k 0) (el ^^^ k 1), odd := be64 (oh ^^^ k 2) (ol ^^^ k 3), number := w, valid := true }
           epoch := v.epoch + 1 })) ∧
  (noticeCrc [] = 0xFFFF ∧ ∀ (bytes : List Byte) (b : Byte),
     noticeCrc (bytes ++ [b]) =
       [7, 6, 5, 4, 3, 2, 1, 0].foldl
         (fun (r : BitVec 16) (i : Nat) => if r.getLsbD 15 != b.getLsbD i then (r <<< 1) ^^^ 0x1021#16 else r <<< 1) (noticeCrc bytes))

/-- A TITLE notice's fields are read with ratings above 7 as 7, preview seconds above 900 as 900, and rental hours 0 as 24 and
above 72 as 72 (R37). -/
def Obligations.ATitleNoticeIsReadClamped : Prop :=
  ∀ p : List Byte,
    let t := titleTerms p
    t.number = noticeHalf p 2 ∧ t.price = (noticeHalf p 5).toNat ∧
    ((noticeByte p 4).toNat ≤ 7 → t.rating = (noticeByte p 4).toNat) ∧ (7 < (noticeByte p 4).toNat → t.rating = 7) ∧
    ((noticeHalf p 7).toNat ≤ 900 → t.limit = (noticeHalf p 7).toNat) ∧ (900 < (noticeHalf p 7).toNat → t.limit = 900) ∧
    ((noticeByte p 9).toNat = 0 → t.hours = 24) ∧
    (1 ≤ (noticeByte p 9).toNat → (noticeByte p 9).toNat ≤ 72 → t.hours = (noticeByte p 9).toNat) ∧
    (72 < (noticeByte p 9).toNat → t.hours = 72)

/-- A valid TITLE notice names the slot's title first. Title 0 is free with the notice's rating. A title in the table gives the
slot its rating and price and takes the most recent position, its entry unchanged. Any other title is registered: entered
most recent when the table has room, entered in place of the least recent evictable entry when it has none, or refused and
reported once; the slot then follows the notice (R38, R39, R40, R66, R67, R68). -/
def Obligations.ATitleNoticeSetsTheTitle : Prop :=
  ∀ (s : State) (i : Fin 4) (t : TitleTerms) (v : ServiceSlot), s.slots.get i = some v →
    let named := s.setSlot i (some { v with title := t.number })
    let slot := fun rating pay => some { v with title := t.number, rating := rating, pay := pay }
    (t.number = 0 → s.titleNotice i t = s.setSlot i (slot t.rating false)) ∧
    (∀ e, t.number ≠ 0 → s.title? t.number = some e → TitleSafe s →
      s.titleNotice i t =
        { s.setSlot i (slot e.rating (decide (0 < e.price))) with
          titles := s.titles.filter (fun x => x.number != t.number) ++ [e] }) ∧
    (t.number ≠ 0 → s.title? t.number = none →
      (s.titles.length < 32 →
        s.titleNotice i t =
          { s.setSlot i (slot t.rating (decide (0 < t.price))) with
            titles := s.titles ++ [s.newEntry t]
            refused := s.refused.filter (fun x => x != t.number) }) ∧
      (∀ e, 32 ≤ s.titles.length → named.victim = some e →
        s.titleNotice i t =
          { s.setSlot i (slot t.rating (decide (0 < t.price))) with
            titles := s.titles.filter (fun x => x.number != e.number) ++ [s.newEntry t]
            refused := s.refused.filter (fun x => x != t.number) }) ∧
      (32 ≤ s.titles.length → named.victim = none → s.refused.contains t.number = true →
        s.titleNotice i t = s.setSlot i (slot t.rating (decide (0 < t.price)))) ∧
      (32 ≤ s.titles.length → named.victim = none → s.refused.contains t.number = false →
        s.titleNotice i t =
          { s.setSlot i (slot t.rating (decide (0 < t.price))) with
            refused := (if s.refused.length < 16 then s.refused else s.refused.drop 1) ++ [t.number] }.raiseEvent
            (.titleTableFull t.number)))

/-- The entry a registration evicts is OFFERED with preview used 0 and current in no slot, and every entry standing less recent
is PREVIEW or beyond, has used preview, or is current in a slot; none is evicted only where that holds of every entry (R67). A new entry has preview used 0 and clear seen flags,
and is OFFERED unless it has no preview in an open stay, where it is EXHAUSTED (R66). -/
def Obligations.EvictionTakesTheLeastRecentCandidate : Prop :=
  (∀ (s : State) (e : TitleEntry), s.victim = some e →
    ∃ before after, s.titles = before ++ e :: after ∧ e.state = .offered ∧ e.used = 0 ∧
      (∀ i v, s.slots.get i = some v → v.title ≠ e.number) ∧
      ∀ x ∈ before, x.state ≠ .offered ∨ x.used ≠ 0 ∨ ∃ i v, s.slots.get i = some v ∧ v.title = x.number) ∧
  (∀ s : State, s.victim = none →
    ∀ x ∈ s.titles, x.state ≠ .offered ∨ x.used ≠ 0 ∨ ∃ i v, s.slots.get i = some v ∧ v.title = x.number) ∧
  (∀ (s : State) (t : TitleTerms),
    let e := s.newEntry t
    e.number = t.number ∧ e.rating = t.rating ∧ e.price = t.price ∧ e.limit = t.limit ∧ e.hours = t.hours ∧ e.used = 0 ∧
      e.seenMain = false ∧ e.seenMosaic = false ∧
      (1 ≤ t.limit → e.state = .offered) ∧ (t.limit = 0 → s.stay.state = .vacant → e.state = .offered) ∧
      (t.limit = 0 → s.stay.state ≠ .vacant → e.state = .exhausted))

/-! ## Descrambling and verdicts (chapters 4, 6 and 7) -/

/-- The keystream word of a key with high word H and low word L, a service n and a position p is the fold of (((L + n × 2^24 +
p) exclusive-or H) × 65,539) modulo 2^32 (R52). Payload positions and unwrap positions lie in the ranges of R53 and never
meet. A payload word is descrambled by exclusive-or with the keystream word of its position (R54), so that descrambling it twice
gives it back, and a wrapped value is unwrapped by exclusive-or with that of its own (R60). -/
def Obligations.TheKeystreamFollowsItsFourStages : Prop :=
  (∀ (high low : Word) (n : Byte) (p : BitVec 24),
     let x := BitVec.ofNat 32 (low.toNat + n.toNat * 2 ^ 24 + p.toNat) ^^^ high
     let y := BitVec.ofNat 32 (x.toNat * 65539)
     keystream (be64 high low) n p = y ^^^ BitVec.ofNat 32 (y.toNat / 2 ^ 13)) ∧
  (∀ (c : BitVec 4) (k : Nat) (w : BitVec 16) (i : Nat), k ≤ 30 → i ≤ 3 →
     (payloadPosition c k).toNat = c.toNat * 65536 + k ∧ (payloadPosition c k).toNat ≤ 0x0F001E ∧
     (unwrapPosition w i).toNat = 0x800000 + w.toNat * 4 + i ∧ (unwrapPosition w i).toNat ≤ 0x83FFFF ∧
     payloadPosition c k ≠ unwrapPosition w i ∧
     ∀ (key : BitVec 64) (n : Byte) (x : Word),
       descrambleWord key n c k x = x ^^^ keystream key n (BitVec.ofNat 24 (c.toNat * 65536 + k)) ∧
       descrambleWord key n c k (descrambleWord key n c k x) = x ∧
       unwrapWord key n w i x = x ^^^ keystream key n (BitVec.ofNat 24 (0x800000 + w.toNat * 4 + i)))

/-- The pair is chosen by the first test of R58 that applies. -/
def Obligations.ThePairIsChosenByEpoch : Prop :=
  ∀ (e : Entry) (v : ServiceSlot),
    (e.keyed = false → choosePair e v = .nokey) ∧
    (e.keyed = true → e.epoch = v.epoch → v.current.valid = true → choosePair e v = .pair v.current) ∧
    (e.keyed = true → ¬ (e.epoch = v.epoch ∧ v.current.valid = true) → e.epoch = v.epoch - 1 → v.previous.valid = true →
      choosePair e v = .pair v.previous) ∧
    (e.keyed = true → ¬ (e.epoch = v.epoch ∧ v.current.valid = true) →
      ¬ (e.epoch = v.epoch - 1 ∧ v.previous.valid = true) → choosePair e v = .stale)

/-- The effective and the unlifted ceiling by stay state and lift (R84), and that the effective ceiling never exceeds the site
clamp in a state that keeps the lock unit's ranges. -/
def Obligations.TheEffectiveCeilingFollowsTheStay : Prop :=
  ∀ s : State,
    (s.stay.state ≠ .occupied →
      s.effectiveCeiling = s.tariff.houseCeiling ∧ s.unliftedCeiling = s.tariff.houseCeiling) ∧
    (s.stay.state = .occupied → s.lock.lift = 0 →
      s.effectiveCeiling = s.stay.ceiling ∧ s.unliftedCeiling = s.stay.ceiling) ∧
    (s.stay.state = .occupied → 0 < s.lock.lift →
      s.effectiveCeiling = s.tariff.siteClamp ∧ s.unliftedCeiling = s.stay.ceiling) ∧
    (LockSafe s → s.effectiveCeiling ≤ s.tariff.siteClamp)

/-- The verdict of each kind of slot: EMPTY, BAD, CONTROL and FILLER on their kind alone, an EMPTY one being HELD_UNDERRUN with no
flag, zeros for its payload, no first read and no seen mark (R28, R100); a picture cell by the first held test of R102 that
applies (R58, R101, R102, R103). That pair selection is made for a read of the header word alone too
(`payload` false), so that HELD_NOKEY and HELD_STALE can stand there, is the model's reading of log entry 22 (DEDUCED, unsafe). The law of shown payload: payload is presented as anything but zeros only for
a picture cell whose rating is no higher than the effective ceiling and, for a pay cell, only in an OCCUPIED stay with its
title PURCHASED, OFFERED or PREVIEW (R104). -/
def Obligations.VerdictsFollowTheOrderOfTests : Prop :=
  (∀ (s : State) (b : Binding) (e : Entry) (payload : Bool),
     let j := s.judge b e payload
     let unpaid := e.pay = true ∧ (s.stay.state ≠ .occupied ∨ s.title? e.title = none ∨
       ∃ t, s.title? e.title = some t ∧ t.shut = true)
     let choice := choosePair e (s.slotOf b.service)
     (e.state = .empty →
       j.reason = .heldUnderrun ∧ j.flags = ⟨false, false, false, false, false⟩ ∧ j.treatment = .zeros ∧
       j.firstRead = false ∧ j.mark = none) ∧
     (e.state ≠ .empty → e.kind = .bad → j.reason = .heldNotcell) ∧
     (e.state ≠ .empty → e.kind = .control ∨ e.kind = .filler → j.reason = .shownClear) ∧
     (e.state ≠ .empty → e.kind ≠ .picture → j.treatment = .zeros ∧ j.mark = none) ∧
     (e.state ≠ .empty → e.kind = .picture →
       (s.effectiveCeiling < e.rating → j.reason = .heldRating ∧ j.treatment = .zeros) ∧
       (e.rating ≤ s.effectiveCeiling → unpaid → j.reason = .heldUnpaid ∧ j.treatment = .zeros) ∧
       (e.rating ≤ s.effectiveCeiling → ¬ unpaid → e.scramble ≠ .clear → choice = .nokey →
         j.reason = .heldNokey ∧ j.treatment = .zeros) ∧
       (e.rating ≤ s.effectiveCeiling → ¬ unpaid → e.scramble ≠ .clear → choice = .stale →
         j.reason = .heldStale ∧ j.treatment = .zeros) ∧
       (e.rating ≤ s.effectiveCeiling → ¬ unpaid → e.scramble = .clear →
         j.reason = .shownClear ∧ j.treatment = .asStored) ∧
       (∀ p, e.rating ≤ s.effectiveCeiling → ¬ unpaid → e.scramble = .even → choice = .pair p →
         j.reason = .shownOpened ∧ j.treatment = .descramble p.even b.service e.continuity) ∧
       (∀ p, e.rating ≤ s.effectiveCeiling → ¬ unpaid → e.scramble = .odd → choice = .pair p →
         j.reason = .shownOpened ∧ j.treatment = .descramble p.odd b.service e.continuity))) ∧
  (∀ (s : State) (b : Binding) (e : Entry) (payload : Bool), (s.judge b e payload).treatment ≠ .zeros →
     e.state ≠ .empty ∧ e.kind = .picture ∧ e.rating ≤ s.effectiveCeiling ∧
     (e.pay = true → s.stay.state = .occupied ∧ ∃ t, s.title? e.title = some t ∧
       (t.bought = true ∨ t.state = .offered ∨ t.state = .preview)))

/-- The five flags: LOST and REREAD from the entry, NOPICTURE for CONTROL and FILLER, PREVIEW for a shown picture whose title
stands OFFERED or PREVIEW, LIFTED for a shown picture rated above the unlifted ceiling; and a seen mark only at the first
read of a shown picture (R105, R108). The verdict byte carries the reason, by its code of section 7.2, in bits 2 to 0 and LOST, PREVIEW, LIFTED,
NOPICTURE and REREAD in bits 3 to 7; a header word is presented with its bytes 0 to 2 as stored and the verdict byte in byte
3 (R106, R107, section 12.1). -/
def Obligations.VerdictFlagsAndTheVerdictByte : Prop :=
  (∀ (s : State) (b : Binding) (e : Entry) (payload : Bool), e.state ≠ .empty →
     let j := s.judge b e payload
     j.flags.lost = e.lostBefore ∧ (j.flags.reread = true ↔ e.state = .read) ∧
     (j.flags.nopicture = true ↔ e.kind = .control ∨ e.kind = .filler) ∧
     (j.flags.preview = true ↔ e.kind = .picture ∧ j.reason.shown = true ∧
       ∃ t, s.title? e.title = some t ∧ (t.state = .offered ∨ t.state = .preview)) ∧
     (j.flags.lifted = true ↔ e.kind = .picture ∧ j.reason.shown = true ∧ s.unliftedCeiling < e.rating) ∧
     (j.firstRead = true ↔ payload = true ∧ e.state = .written) ∧
     (∀ m, j.mark = some m ↔ m = (e.title, b.role) ∧ e.kind = .picture ∧ j.reason.shown = true ∧ j.firstRead = true)) ∧
  ((∀ (r : Reason) (f : VerdictFlags),
     ((verdictByte r f).extractLsb' 0 3).toNat =
       [Reason.shownClear, .shownOpened, .heldRating, .heldUnpaid, .heldNokey, .heldStale, .heldUnderrun, .heldNotcell].idxOf r ∧
     (verdictByte r f).getLsbD 3 = f.lost ∧
     (verdictByte r f).getLsbD 4 = f.preview ∧ (verdictByte r f).getLsbD 5 = f.lifted ∧
     (verdictByte r f).getLsbD 6 = f.nopicture ∧ (verdictByte r f).getLsbD 7 = f.reread) ∧
   ∀ (j : Judgement) (x : Word),
     byteOf (j.header x) 0 = byteOf x 0 ∧ byteOf (j.header x) 1 = byteOf x 1 ∧ byteOf (j.header x) 2 = byteOf x 2 ∧
     byteOf (j.header x) 3 = verdictByte j.reason j.flags)

/-- LANE_READ_WORD: a word of a judged burst is presented by its judgement, a word of a burst whose binding has ended as stored;
the first payload word of a first read makes the slot READ and hands the seen mark; the store is never changed (R5, R27,
R63, R70, R108). By a judgement, the header word keeps its first three bytes and takes the verdict byte, a payload word held or
of no picture is presented as 0, a clear one as stored, and an opened one descrambled with its own index (R54, R106). -/
def Obligations.ALaneReadWordIsPresented : Prop :=
  (∀ (j : Judgement) (k : Nat) (x : Word),
    (∀ i, i < 3 → byteOf (j.header x) i = byteOf x i) ∧ byteOf (j.header x) 3 = verdictByte j.reason j.flags ∧
    Treatment.zeros.present k x = 0 ∧ Treatment.asStored.present k x = x ∧
    ∀ key service continuity,
      (Treatment.descramble key service continuity).present k x = x ^^^ keystream key service (payloadPosition continuity k)) ∧
  (∀ (s : State) (t : MediaTxn) (n : Fin 4),
    s.tick = TickWork.none → s.wordTxn .read = some t → t.cls = .lane n →
    let x := Memory.readWord s.store t.nextAddr
    (t.judged = none →
      exec .laneReadWord s =
        .next { s with presented := s.presented ++ [x], media := some { t with passed := t.passed + 1 } }) ∧
    (∀ j, t.judged = some j → t.nextAddr % 128 = 0 →
      exec .laneReadWord s =
        .next { s with presented := s.presented ++ [j.header x], media := some { t with passed := t.passed + 1 } }) ∧
    (∀ j, t.judged = some j → t.nextAddr % 128 ≠ 0 → j.firstRead = false →
      exec .laneReadWord s =
        .next { s with
          presented := s.presented ++ [j.treatment.present (t.nextAddr % 128 / 4 - 1) x]
          media := some { t with passed := t.passed + 1, judged := some { j with firstRead := false, mark := none } } }) ∧
    (∀ j b, t.judged = some j → t.nextAddr % 128 ≠ 0 → j.firstRead = true → (s.lanes.get n).binding = some b →
      let l := s.lanes.get n
      let slot := (t.nextAddr - b.base) / 128
      exec .laneReadWord s =
        .next { s with
          presented := s.presented ++ [j.treatment.present (t.nextAddr % 128 / 4 - 1) x]
          lanes := s.lanes.set n { l with slice := l.slice.set slot { l.entry slot with state := .read } }
          titles := match j.mark with
            | none => s.titles
            | some m => s.titles.map (fun e => if e.number == m.1 then
                (match m.2 with
                  | .main => { e with seenMain := true }
                  | .mosaic => { e with seenMosaic := true }) else e)
          media := some { t with passed := t.passed + 1, judged := some { j with firstRead := false, mark := none } } }))

/-! ## The command ring (chapters 6, 8, 9 and 10) -/

/-- COMMAND_FETCH_REQUEST: with the five conditions of R142 a fetch of the record at the command head begins, granted at once at
a free store port with the agent moved to the end of the rotation order, or waiting; with any of them unmet nothing happens. -/
def Obligations.AFetchBeginsUnderItsFiveConditions : Prop :=
  ∀ s : State, s.tick = TickWork.none → s.working = true →
    (∀ base n h, s.commandRing = .inForce base n h → h ≠ s.anchor.commandTail.toNat % n → s.fetch = none →
      s.reports.length ≤ 8 → s.reportRingFull = false →
      (s.port = .free →
        exec .commandFetchRequest s =
          .next { s with
            fetch := some h
            port := .house .command (base + h * 32) [] false
            requests := { s.requests with command := false }
            rotation := toEnd s.rotation .command }) ∧
      (s.port ≠ .free →
        exec .commandFetchRequest s =
          .next { s with fetch := some h, requests := { s.requests with command := true } })) ∧
    ((s.commandRing.isOpen = false ∨ s.fetch.isSome = true ∨ 8 < s.reports.length ∨ s.reportRingFull = true ∨
        (∀ base n h, s.commandRing = .inForce base n h → h = s.anchor.commandTail.toNat % n)) →
      exec .commandFetchRequest s = .next s)

/-- The completion of a fetch after its command has executed: the result report joins the queue, or is dropped with the overflow
mark set when 16 wait; the command head advances modulo the slot count; the fetch is over; and the store port is handed on by the
rule of TheArbiterHandsOnThePort from the state so reached. That a request which the completion itself brings about comes after
that decision is the model's choice of log entry 23 (DESIGN CHOICE, unsafe). Nothing else of the part or of the store changes (R143, R145). The pending queue: a report handed while 16 wait is dropped
and sets the overflow mark; one placed at the head while 16 wait drops the one at the tail and sets the mark; else each
joins its end and the mark stays (R145). A fetch can complete with a command exactly when the part works, a fetch is in
progress and holds the store port, unorphaned, and the 32 bytes of the store at its address are a record of that command (R142,
R143); that a row of the command ring stands for such a record, read whole at the completion, is the model's choice of log entry
17 (DESIGN CHOICE, safe). -/
def Obligations.AFetchFinishesAndQueuesItsReport : Prop :=
  (∀ (u : State) (tag : Word) (code : Byte) (a : Answer),
     let t := u.finishFetch tag code a
     t =
       { u with
         reports := if u.reports.length < 16 then u.reports ++ [(⟨.result tag code a.1 a.2, false⟩ : Report)] else u.reports
         overflow := if u.reports.length < 16 then u.overflow else true
         commandRing := match u.commandRing with
           | .inForce base n h => .inForce base n ((h + 1) % n)
           | ring => ring
         fetch := none }.handOver ∧
     t.fetch = none ∧
     (∀ base n h, u.commandRing = .inForce base n h → t.commandRing = .inForce base n ((h + 1) % n)) ∧
     (u.reports.length < 16 →
       t.reports = u.reports ++ [⟨.result tag code a.1 a.2, false⟩] ∧ t.overflow = u.overflow) ∧
     (16 ≤ u.reports.length → t.reports = u.reports ∧ t.overflow = true) ∧
     (u.working = true → u.requests.any = false → u.mediaWaits = false → t.port = .free) ∧
     t.store = u.store ∧ t.presented = u.presented ∧ t.nextPhase = u.nextPhase ∧ t.anchor = u.anchor ∧ t.reportRing = u.reportRing ∧
     t.lanes = u.lanes ∧ t.slots = u.slots ∧ t.siteKey = u.siteKey ∧ t.titles = u.titles ∧ t.refused = u.refused ∧
     t.lock = u.lock ∧ t.stay = u.stay ∧ t.tariff = u.tariff ∧ t.charges = u.charges ∧ t.reportWrite = u.reportWrite ∧
     t.causes = u.causes ∧ t.liftMark = u.liftMark ∧ t.attention = u.attention ∧ t.supply = u.supply ∧
     t.tickCount = u.tickCount ∧ t.tick = u.tick ∧ t.pending = u.pending ∧
     (∀ b, Memory.read t.store b = Memory.read u.store b)) ∧
  (∀ (s : State) (b : ReportBody) (r : Report),
     (s.reports.length < 16 →
       s.hand b = { s with reports := s.reports ++ [⟨b, false⟩] } ∧ s.placeFirst r = { s with reports := r :: s.reports }) ∧
     (16 ≤ s.reports.length →
       s.hand b = { s with overflow := true } ∧
       s.placeFirst r = { s with reports := r :: s.reports.dropLast, overflow := true })) ∧
  (∀ (s : State) (c : Instr),
     s.fetchReady c = true ↔
       s.working = true ∧ (∃ slot, s.fetch = some slot) ∧
       ∃ addr data, s.port = .house .command addr data false ∧
         decodeRecord ((List.range 32).map (fun i => Memory.read s.store (addr + i))) = c)

/-- SITE_KEY replaces the site key and nothing else, in every stay state (R62); STAY_QUERY reports the stay and changes nothing
(R137); a record with an unassigned code changes nothing and answers UNKNOWN (R144). QUERY_TITLE answers NO_TITLE for title
0 or a title not in the table, else the entry as it stands, with the rental seconds remaining by its state; it changes
nothing (R79). -/
def Obligations.QueriesSiteKeyAndUnknownComplete : Prop :=
  (∀ (tag : Word) (s : State),
     (∀ key, s.takes (.siteKey tag key) →
       Answers (.siteKey tag key) tag 0x01 s { s with siteKey := key } (.done, .absent)) ∧
     (s.takes (.stayQuery tag) →
       Declines (.stayQuery tag) tag 0x05 s
         (.done, .stayQuery s.stay.state s.charges.netTotal s.charges.taxTotal
           (if s.stay.state = .vacant then 0 else s.stay.credit - (s.charges.netTotal + s.charges.taxTotal))
           s.charges.lastIssued s.charges.acknowledged)) ∧
     (∀ code, s.takes (.unknown tag code) → Declines (.unknown tag code) tag code s (.unknown, .absent))) ∧
  (∀ (tag : Word) (title : BitVec 16) (s : State), s.takes (.queryTitle tag title) →
     (title = 0 ∨ s.title? title = none → Declines (.queryTitle tag title) tag 0x10 s (.noTitle, .absent)) ∧
     (∀ e, title ≠ 0 → s.title? title = some e →
       let report := fun remaining sequence =>
         Declines (.queryTitle tag title) tag 0x10 s
           (.done, .queryTitle e.state e.rating e.used e.limit e.price remaining sequence)
       (∀ second sequence, e.state = .purchased second sequence →
         report (second + e.hours * 3600 - s.stay.seconds) sequence) ∧
       (∀ second sequence, e.state = .lapsed second sequence → report 0 sequence) ∧
       (e.state = .offered ∨ e.state = .preview ∨ e.state = .exhausted → report (e.hours * 3600) 0)))

/-- TARIFF is refused with BAD_FORMAT for a site clamp above 7 or a discreet class above 8, then with STAY_OPEN outside VACANT;
else it replaces the five fields, the tax rate lowered to 3,000, the house ceiling to the site clamp, and the lift minutes
brought within 1 to 240, and reports them as set (R83, R131). -/
def Obligations.TariffReplacesTheTariff : Prop :=
  ∀ (tag : Word) (tax minutes : BitVec 16) (clamp house discreet : Byte) (s : State),
    let c := Instr.tariff tag tax clamp house discreet minutes
    s.takes c →
    (7 < clamp.toNat ∨ 8 < discreet.toNat → Declines c tag 0x02 s (.badFormat, .absent)) ∧
    (clamp.toNat ≤ 7 → discreet.toNat ≤ 8 → s.stay.state ≠ .vacant → Declines c tag 0x02 s (.stayOpen, .absent)) ∧
    (clamp.toNat ≤ 7 → discreet.toNat ≤ 8 → s.stay.state = .vacant →
      ∃ t : Tariff, t.taxRate = min tax.toNat 3000 ∧ t.siteClamp = clamp.toNat ∧
        t.houseCeiling = min house.toNat clamp.toNat ∧ t.discreetClass = discreet.toNat ∧
        (minutes.toNat = 0 → t.liftMinutes = 1) ∧
        (1 ≤ minutes.toNat → minutes.toNat ≤ 240 → t.liftMinutes = minutes.toNat) ∧
        (240 < minutes.toNat → t.liftMinutes = 240) ∧
        Answers c tag 0x02 s { s with tariff := t } (.done, .tariff t))

/-- OPEN_STAY is refused with BAD_FORMAT for stay number 0 or a PIN that is not well formed, then with STAY_BUSY outside VACANT;
else the stay opens with its fields clamped, stay seconds, totals and count at 0, the command's PIN, and each OFFERED entry
of preview limit 0 EXHAUSTED (R69, R83, R85, R133, R134). -/
def Obligations.OpenStayOpensTheStay : Prop :=
  ∀ (tag number credit : Word) (ceiling discount : Byte) (pin : PinField) (s : State),
    let c := Instr.openStay tag number ceiling credit discount pin
    s.takes c →
    (number = 0 ∨ pinWellFormed pin = false → Declines c tag 0x03 s (.badFormat, .absent)) ∧
    (number ≠ 0 → pinWellFormed pin = true → s.stay.state ≠ .vacant → Declines c tag 0x03 s (.stayBusy, .absent)) ∧
    (number ≠ 0 → pinWellFormed pin = true → s.stay.state = .vacant →
      let g := min ceiling.toNat s.tariff.siteClamp
      let k := min credit.toNat 1000000
      let d := min discount.toNat 90
      Answers c tag 0x03 s
        { s with
          stay := { state := .occupied, number := number, seconds := 0, ceiling := g, credit := k, discount := d }
          charges := { s.charges with netTotal := 0, taxTotal := 0, count := 0 }
          lock := { s.lock with pin := some (pin.places.take pin.length.toNat) }
          titles := s.titles.map (fun e => if e.state = .offered ∧ e.limit = 0 then { e with state := .exhausted } else e) }
        (.done, .openStay g k d))

/-- CLOSE_STAY answers NO_STAY in VACANT and ALREADY in CLOSING. In OCCUPIED it ends a standing lift with LIFT_ENDED (CLOSE)
ahead of its result, issues the CLOSE record with the next sequence number at the tail of the list, and makes the stay
CLOSING (R92, R121, R135). -/
def Obligations.CloseStayIssuesTheCloseRecord : Prop :=
  ∀ (tag : Word) (s : State), s.takes (.closeStay tag) →
    let c := Instr.closeStay tag
    (s.stay.state = .vacant → Declines c tag 0x04 s (.noStay, .absent)) ∧
    (s.stay.state = .closing → Declines c tag 0x04 s (.already, .absent)) ∧
    (s.stay.state = .occupied →
      let record : ChargeRecord :=
        { sequence := s.charges.lastIssued + 1, stayNumber := s.stay.number, second := s.stay.seconds
          spent := s.charges.netTotal + s.charges.taxTotal
          body := .close s.charges.count s.charges.netTotal s.charges.taxTotal }
      let closed := { s with
        charges := { s.charges with lastIssued := s.charges.lastIssued + 1, list := s.charges.list ++ [⟨record, false⟩] }
        stay := { s.stay with state := .closing } }
      let answer : Answer := (.done,
        .closeStay (s.charges.lastIssued + 1) s.charges.netTotal s.charges.taxTotal s.charges.count)
      (s.lock.lift = 0 → Answers c tag 0x04 s closed answer) ∧
      (0 < s.lock.lift →
        Answers c tag 0x04 s ({ closed with lock := { s.lock with lift := 0 } }.raiseEvent (.liftEnded .close)) answer))

/-- ACK_CHARGES moves acknowledged to the smaller of last issued and the larger of acknowledged and the given number, and every
record up to it leaves the list. When that acknowledges the last record of a CLOSING stay, the room returns to VACANT with
STAY_VACANT ahead of the result: the stay's ceiling, credit and discount, the lock's PIN, tries and lockout, the sequence
numbers, the title table and the refused list are cleared, and the stay number, stay seconds and totals are kept (R80, R96,
R111, R120, R136). -/
def Obligations.AckChargesReleasesRecords : Prop :=
  ∀ (tag sequence : Word) (s : State), s.takes (.ackCharges tag sequence) →
    let c := Instr.ackCharges tag sequence
    let ack := min s.charges.lastIssued (max s.charges.acknowledged sequence.toNat)
    let left := s.charges.list.filter (fun i => decide (ack < i.record.sequence))
    let write := s.charges.write.map (fun w => if w.record.sequence ≤ ack then { w with listed := false } else w)
    (s.stay.state ≠ .closing ∨ ack ≠ s.charges.lastIssued →
      Answers c tag 0x06 s { s with charges := { s.charges with acknowledged := ack, list := left, write := write } }
        (.done, .ackCharges ack s.charges.lastIssued)) ∧
    (s.stay.state = .closing → ack = s.charges.lastIssued →
      Answers c tag 0x06 s
        ({ s with
          charges := { s.charges with lastIssued := 0, acknowledged := 0, list := [], write := write }
          stay := { s.stay with state := .vacant, ceiling := 0, credit := 0, discount := 0 }
          lock := { s.lock with pin := none, tries := 0, lockout := 0 }
          titles := []
          refused := [] }.raiseEvent (.stayVacant s.stay.number))
        (.done, .ackCharges 0 0))

/-- LOG_REGION is refused with BAD_FORMAT, OVERLAP or STAGED_FULL by the first of its tests that fails, and else makes the
region current with write index 0, or staged behind a current one (R122, R123). SET_CREDIT answers NO_STAY in VACANT,
CLOSING in CLOSING, and CREDIT with the spent amount when the limit, lowered to 1,000,000, is below it; else it replaces the
credit limit (R118). -/
def Obligations.LogRegionAndSetCreditComplete : Prop :=
  (∀ (tag base : Word) (slots : BitVec 16) (s : State), s.takes (.logRegion tag base slots) →
     let c := Instr.logRegion tag base slots
     let fits := base.toNat % 32 = 0 ∧ 8 ≤ slots.toNat ∧ slots.toNat ≤ 4096 ∧
       base.toNat + slots.toNat * 32 ≤ Config.storeSize
     let clear := ∀ x ∈ s.extents, overlaps (base.toNat, slots.toNat * 32) x = false
     (¬ fits → Declines c tag 0x07 s (.badFormat, .absent)) ∧
     (fits → ¬ clear → Declines c tag 0x07 s (.overlap, .absent)) ∧
     (fits → clear → s.charges.current.isSome = true → s.charges.staged.isSome = true →
       Declines c tag 0x07 s (.stagedFull, .absent)) ∧
     (fits → clear → s.charges.current = none →
       Answers c tag 0x07 s { s with charges := { s.charges with current := some ⟨base.toNat, slots.toNat, 0⟩ } }
         (.done, .logRegion false)) ∧
     (fits → clear → s.charges.current.isSome = true → s.charges.staged = none →
       Answers c tag 0x07 s { s with charges := { s.charges with staged := some ⟨base.toNat, slots.toNat⟩ } }
         (.done, .logRegion true))) ∧
  (∀ (tag limit : Word) (s : State), s.takes (.setCredit tag limit) →
     let c := Instr.setCredit tag limit
     let k := min limit.toNat 1000000
     let spent := s.charges.netTotal + s.charges.taxTotal
     (s.stay.state = .vacant → Declines c tag 0x08 s (.noStay, .absent)) ∧
     (s.stay.state = .closing → Declines c tag 0x08 s (.closing, .absent)) ∧
     (s.stay.state = .occupied → k < spent → Declines c tag 0x08 s (.credit, .setCreditSpent spent)) ∧
     (s.stay.state = .occupied → spent ≤ k →
       Answers c tag 0x08 s { s with stay := { s.stay with credit := k } } (.done, .setCredit k (k - spent))))

/-- A charge's net and tax are the discounted price and the taxed net, each rounded to the nearest unit with halves up, and
under the ranges of R112 no step leaves 32 bits. A PURCHASE record names its title and a service unless the title's rating
reaches the discreet class, when it carries title 0, service 0 and the DISCREET mark. The service is the MAIN lane's when
its slot shows the title, else that of the lowest-numbered lane showing it, else 0 (R115). -/
def Obligations.WhatAPurchaseRecordCarries : Prop :=
  (∀ price discount rate : Nat, price ≤ 65535 → discount ≤ 90 → rate ≤ 3000 →
     let net := chargeNet price discount
     let tax := chargeTax net rate
     100 * net ≤ price * (100 - discount) + 50 ∧ price * (100 - discount) + 50 < 100 * (net + 1) ∧
     10000 * tax ≤ net * rate + 5000 ∧ net * rate + 5000 < 10000 * (tax + 1) ∧
     net ≤ price ∧ price * (100 - discount) + 50 ≤ 6553550 ∧ net * rate + 5000 ≤ 196610000) ∧
  (∀ (s : State) (e : TitleEntry),
     let net := chargeNet e.price s.stay.discount
     let tax := chargeTax net s.tariff.taxRate
     (s.tariff.discreetClass ≤ e.rating → s.purchaseBody e = .purchase true 0 0 net tax) ∧
     (e.rating < s.tariff.discreetClass →
       s.purchaseBody e = .purchase false e.number (s.carriedService e.number) net tax) ∧
     (∀ n b, (s.lanes.get n).binding = some b → b.role = .main → (four.filter s.laneIsMain).length ≤ 1 →
       (s.slotOf b.service).title = e.number → s.carriedService e.number = b.service) ∧
     (∀ n b, (s.lanes.get n).binding = some b → (s.slotOf b.service).title = e.number →
       (∀ m, s.laneShows m e.number = true → s.laneIsMain m = false) →
       (∀ m, m < n → s.laneShows m e.number = false) → s.carriedService e.number = b.service) ∧
     ((∀ n, s.laneShows n e.number = false) → s.carriedService e.number = 0))

/-- BUY fails with the result of the first check of R113 that fails, changing nothing, with the total and the credit remaining
in the payload of CREDIT. A commit that passes issues a PURCHASE record with the next sequence number, adds its net, its tax
and 1 to the totals, and makes the title PURCHASED at the stay's second (R78, R113, R114, R116). -/
def Obligations.BuyCommitsOrNamesTheFailedCheck : Prop :=
  ∀ (tag : Word) (title : BitVec 16) (s : State), s.takes (.buy tag title) →
    let c := Instr.buy tag title
    let spent := s.charges.netTotal + s.charges.taxTotal
    (s.stay.state = .vacant → Declines c tag 0x09 s (.noStay, .absent)) ∧
    (s.stay.state = .closing → Declines c tag 0x09 s (.closing, .absent)) ∧
    (s.stay.state = .occupied →
      (s.title? title = none → Declines c tag 0x09 s (.noTitle, .absent)) ∧
      ∀ e, s.title? title = some e →
        let net := chargeNet e.price s.stay.discount
        let tax := chargeTax net s.tariff.taxRate
        let full := 15 ≤ (s.charges.list.filter ChargeItem.isPurchase).length ∨ 2 ^ 32 - 2 ≤ s.charges.lastIssued
        (e.bought = true → Declines c tag 0x09 s (.already, .absent)) ∧
        (e.bought = false → e.price = 0 → Declines c tag 0x09 s (.free, .absent)) ∧
        (e.bought = false → e.price ≠ 0 → s.effectiveCeiling < e.rating → Declines c tag 0x09 s (.rating, .absent)) ∧
        (e.bought = false → e.price ≠ 0 → e.rating ≤ s.effectiveCeiling → s.stay.credit < spent + (net + tax) →
          Declines c tag 0x09 s (.credit, .buyCredit (net + tax) (s.stay.credit - spent))) ∧
        (e.bought = false → e.price ≠ 0 → e.rating ≤ s.effectiveCeiling → spent + (net + tax) ≤ s.stay.credit → full →
          Declines c tag 0x09 s (.logFull, .absent)) ∧
        (e.bought = false → e.price ≠ 0 → e.rating ≤ s.effectiveCeiling → spent + (net + tax) ≤ s.stay.credit → ¬ full →
          let record : ChargeRecord :=
            { sequence := s.charges.lastIssued + 1, stayNumber := s.stay.number, second := s.stay.seconds
              spent := spent + (net + tax), body := s.purchaseBody e }
          let after := spent + (net + tax)
          Answers c tag 0x09 s
            { s with
              charges := { s.charges with
                lastIssued := s.charges.lastIssued + 1
                list := s.charges.list ++ [⟨record, false⟩]
                netTotal := s.charges.netTotal + net
                taxTotal := s.charges.taxTotal + tax
                count := s.charges.count + 1 }
              titles := s.titles.map (fun x =>
                if x.number == e.number then
                  { x with state := .purchased s.stay.seconds (s.charges.lastIssued + 1) } else x) }
            (.done, .buy (s.charges.lastIssued + 1) net tax after (s.stay.credit - after))))

/-- BIND is refused by the first of its five tests that fails, changing nothing; one that passes binds the lane with a fresh
slice of EMPTY entries, in HUNT with both counts 0, and joins the service slot of its service (R17, R18, R20, R47), whose contents
when just taken are those of R46. The free entries are 2,048 less the slots of the bound lanes (R20). That a new service takes the
lowest-numbered slot not in use is the model's choice of log entry 21 (DESIGN CHOICE). -/
def Obligations.BindFollowsItsFiveTests : Prop :=
  (∀ (tag base : Word) (lane role service : Byte) (slots : BitVec 16) (s : State),
    let c := Instr.bind tag lane role service base slots
    s.takes c →
    let fits := lane.toNat ≤ 3 ∧ base.toNat % 128 = 0 ∧ 16 ≤ slots.toNat ∧ slots.toNat ≤ 1024 ∧
      base.toNat + slots.toNat * 128 ≤ Config.storeSize ∧ role.toNat ≤ 1
    (¬ fits → Declines c tag 0x0A s (.badFormat, .absent)) ∧
    (fits → ∀ n : Fin 4, n.val = lane.toNat →
      let r : Role := if role = 0 then .main else .mosaic
      let b : Binding := { base := base.toNat, slots := slots.toNat, service := service, role := r }
      let clear := ∀ x ∈ s.extents, overlaps (base.toNat, slots.toNat * 128) x = false
      let taken := r = .main ∧ ∃ m, s.laneIsMain m = true
      ((s.lanes.get n).binding.isSome = true → Declines c tag 0x0A s (.laneBusy, .absent)) ∧
      ((s.lanes.get n).binding = none → ¬ clear → Declines c tag 0x0A s (.overlap, .absent)) ∧
      ((s.lanes.get n).binding = none → clear → taken → Declines c tag 0x0A s (.roleTaken, .absent)) ∧
      ((s.lanes.get n).binding = none → clear → ¬ taken → s.freeEntries < slots.toNat →
        Declines c tag 0x0A s (.noDirectory, .absent)) ∧
      ((s.lanes.get n).binding = none → clear → ¬ taken → slots.toNat ≤ s.freeEntries →
        let bound := s.setLane n
          { binding := some b, alignment := .hunt, good := 0, bad := 0, reference := none
            slice := List.replicate slots.toNat Entry.fresh, assembly := none }
        (∀ i v, s.slotIndex service = some i → s.slots.get i = some v →
          Answers c tag 0x0A s (bound.setSlot i (some { v with refs := v.refs + 1 })) (.done, .absent)) ∧
        (∀ i, s.slotIndex service = none → s.freeSlot = some i →
          Answers c tag 0x0A s (bound.setSlot i (some (ServiceSlot.fresh service))) (.done, .absent))))) ∧
  (Entry.fresh =
     { state := .empty, kind := .bad, scramble := .clear, epoch := 0, keyed := false, title := 0, rating := 0, pay := false
       continuity := 0, lostBefore := false } ∧
   ∀ service : Byte,
     ServiceSlot.fresh service =
       { service := service, refs := 1, title := 0, rating := 0, pay := false
         current := { even := 0, odd := 0, number := 0, valid := false }
         previous := { even := 0, odd := 0, number := 0, valid := false }
         epoch := 0 }) ∧
  (∀ s : State,
     let slots := fun n => ((s.lanes.get n).binding.map Binding.slots).getD 0
     s.freeEntries = 2048 - (slots 0 + slots 1 + slots 2 + slots 3) ∧
     (∀ i, s.freeSlot = some i ↔ s.slots.get i = none ∧ ∀ j, j < i → s.slots.get j ≠ none))

/-- UNBIND answers BAD_FORMAT for a lane above 3 and LANE_IDLE for an unbound lane; else the lane returns to its unbound values,
its service slot loses one reference and is cleared at the last, and a transaction of the lane in flight finds its binding
ended (R5, R19, R48). -/
def Obligations.UnbindFreesTheLane : Prop :=
  ∀ (tag : Word) (lane : Byte) (s : State), s.takes (.unbind tag lane) →
    let c := Instr.unbind tag lane
    (3 < lane.toNat → Declines c tag 0x0B s (.badFormat, .absent)) ∧
    (∀ n : Fin 4, n.val = lane.toNat →
      ((s.lanes.get n).binding = none → Declines c tag 0x0B s (.laneIdle, .absent)) ∧
      (∀ b i v, (s.lanes.get n).binding = some b → s.slotIndex b.service = some i → s.slots.get i = some v →
        let media := s.media.map (fun t => if t.cls = .lane n then { t with bound := false, judged := none } else t)
        (v.refs ≤ 1 →
          Answers c tag 0x0B s { (s.setLane n Lane.unbound).setSlot i none with media := media } (.done, .absent)) ∧
        (1 < v.refs →
          Answers c tag 0x0B s
            { (s.setLane n Lane.unbound).setSlot i (some { v with refs := v.refs - 1 }) with media := media }
            (.done, .absent))))

/-- UNLOCK by its five tests: BAD_FORMAT, NO_STAY, CLOSING, LOCKED_OUT with the remainder, a wrong try; a match returns the try
count to 0 and starts a lift of the tariff's lift minutes × 60 (R85, R86, R87, R90). -/
def Obligations.UnlockFollowsItsFiveTests : Prop :=
  ∀ (tag : Word) (pin : PinField) (s : State), s.takes (.unlock tag pin) →
    let c := Instr.unlock tag pin
    let own := some (pin.places.take pin.length.toNat)
    (pinWellFormed pin = false → Declines c tag 0x0C s (.badFormat, .absent)) ∧
    (pinWellFormed pin = true → s.stay.state = .vacant → Declines c tag 0x0C s (.noStay, .absent)) ∧
    (pinWellFormed pin = true → s.stay.state = .closing → Declines c tag 0x0C s (.closing, .absent)) ∧
    (pinWellFormed pin = true → s.stay.state = .occupied → 0 < s.lock.lockout →
      Declines c tag 0x0C s (.lockedOut, .lockedOut s.lock.lockout)) ∧
    (pinWellFormed pin = true → s.stay.state = .occupied → s.lock.lockout = 0 → s.lock.pin ≠ own →
      WrongTry c tag 0x0C s) ∧
    (pinWellFormed pin = true → s.stay.state = .occupied → s.lock.lockout = 0 → s.lock.pin = own →
      Answers c tag 0x0C s { s with lock := { s.lock with tries := 0, lift := s.tariff.liftMinutes * 60 } }
        (.done, .unlock (s.tariff.liftMinutes * 60)))

/-- SET_CEILING: BAD_FORMAT above 7, then NO_STAY or CLOSING; a new value, lowered to the site clamp, at or below the guest
ceiling is set with the PIN not read; a raise is tested as UNLOCK is, and a match sets it and returns the try count to 0
(R83, R94). -/
def Obligations.SetCeilingNeedsThePinOnlyToRaise : Prop :=
  ∀ (tag : Word) (ceiling : Byte) (pin : PinField) (s : State), s.takes (.setCeiling tag ceiling pin) →
    let c := Instr.setCeiling tag ceiling pin
    let g := min ceiling.toNat s.tariff.siteClamp
    let own := some (pin.places.take pin.length.toNat)
    let raise := ceiling.toNat ≤ 7 ∧ s.stay.state = .occupied ∧ s.stay.ceiling < g
    (7 < ceiling.toNat → Declines c tag 0x0E s (.badFormat, .absent)) ∧
    (ceiling.toNat ≤ 7 → s.stay.state = .vacant → Declines c tag 0x0E s (.noStay, .absent)) ∧
    (ceiling.toNat ≤ 7 → s.stay.state = .closing → Declines c tag 0x0E s (.closing, .absent)) ∧
    (ceiling.toNat ≤ 7 → s.stay.state = .occupied → g ≤ s.stay.ceiling →
      Answers c tag 0x0E s { s with stay := { s.stay with ceiling := g } } (.done, .setCeiling g)) ∧
    (raise → pinWellFormed pin = false → Declines c tag 0x0E s (.badFormat, .absent)) ∧
    (raise → pinWellFormed pin = true → 0 < s.lock.lockout →
      Declines c tag 0x0E s (.lockedOut, .lockedOut s.lock.lockout)) ∧
    (raise → pinWellFormed pin = true → s.lock.lockout = 0 → s.lock.pin ≠ own → WrongTry c tag 0x0E s) ∧
    (raise → pinWellFormed pin = true → s.lock.lockout = 0 → s.lock.pin = own →
      Answers c tag 0x0E s { s with stay := { s.stay with ceiling := g }, lock := { s.lock with tries := 0 } }
        (.done, .setCeiling g))

/-- CHANGE_PIN by its five tests; a match replaces the PIN, its length included, and returns the try count to 0 (R95). RELOCK
ends a standing lift with LIFT_ENDED (RELOCK) ahead of its result, and else answers NO_STAY, CLOSING or ALREADY (R92, R93). -/
def Obligations.ChangePinAndRelockComplete : Prop :=
  ∀ (tag : Word) (old new : PinField) (s : State),
    (s.takes (.changePin tag old new) →
      let c := Instr.changePin tag old new
      let formed := pinWellFormed old = true ∧ pinWellFormed new = true
      let own := some (old.places.take old.length.toNat)
      (¬ formed → Declines c tag 0x0F s (.badFormat, .absent)) ∧
      (formed → s.stay.state = .vacant → Declines c tag 0x0F s (.noStay, .absent)) ∧
      (formed → s.stay.state = .closing → Declines c tag 0x0F s (.closing, .absent)) ∧
      (formed → s.stay.state = .occupied → 0 < s.lock.lockout →
        Declines c tag 0x0F s (.lockedOut, .lockedOut s.lock.lockout)) ∧
      (formed → s.stay.state = .occupied → s.lock.lockout = 0 → s.lock.pin ≠ own → WrongTry c tag 0x0F s) ∧
      (formed → s.stay.state = .occupied → s.lock.lockout = 0 → s.lock.pin = own →
        Answers c tag 0x0F s
          { s with lock := { s.lock with pin := some (new.places.take new.length.toNat), tries := 0 } }
          (.done, .absent))) ∧
    (s.takes (.relock tag) →
      let c := Instr.relock tag
      (s.stay.state = .vacant → Declines c tag 0x0D s (.noStay, .absent)) ∧
      (s.stay.state = .closing → Declines c tag 0x0D s (.closing, .absent)) ∧
      (s.stay.state = .occupied → s.lock.lift = 0 → Declines c tag 0x0D s (.already, .absent)) ∧
      (s.stay.state = .occupied → 0 < s.lock.lift →
        Answers c tag 0x0D s ({ s with lock := { s.lock with lift := 0 } }.raiseEvent (.liftEnded .relock))
          (.done, .absent)))

/-- RESTART runs a restart of cause COMMAND with no result report, and the store port, freed by its own fetch, is handed on from
the reset state: to a media transaction that waits, else to nobody (R15, R160, R161). A restart of any cause leaves
the volatile items cleared, joins or replaces the causes held, ends a lift and marks it, and, but for cause COLD, keeps the
retained items, the OFFERED entries and the seen and written flags apart; the store is not changed (R15, R33, R51, R61, R81,
R98, R127, R141, R149, R152, R161). For cause COLD every retained item takes its cold default, the tariff that of R130, and the
cause flags are COLD alone; an unbound lane and the cleared latches hold the values of the last clause (R15, R33, section 2.2). -/
def Obligations.ARestartClearsVolatileState : Prop :=
  (∀ (tag : Word) (s : State), s.takes (.restart tag) →
     exec (.restart tag) s = .next (s.restart .command).handOver ∧
     (s.restart .command).handOver.reports = [] ∧ (s.restart .command).handOver.fetch = none ∧
     (s.mediaWaits = true → (s.restart .command).handOver.port = .media) ∧
     (s.mediaWaits = false → (s.restart .command).handOver.port = .free)) ∧
  (∀ (s : State) (cause : Cause),
     let t := s.restart cause
     t.anchor = AnchorLatches.cleared ∧ t.commandRing = .closed ∧ t.reportRing = .closed ∧ t.requests = Requests.none ∧
     t.waitCount = 0 ∧ t.rotation = [.command, .report, .log] ∧ t.lanes = Four.all Lane.unbound ∧
     t.slots = Four.all none ∧ t.refused = [] ∧ t.fetch = none ∧ t.reports = [] ∧ t.reportWrite = none ∧
     t.overflow = false ∧ t.attention = false ∧ t.tickCount = 0 ∧ t.lock.lift = 0 ∧ t.charges.current = none ∧
     t.charges.staged = none ∧ t.charges.write = none ∧ t.store = s.store ∧ t.supply = s.supply ∧
     (∀ m, s.media = some m → t.media = some { m with bound := false, judged := none }) ∧
     (cause = .line → t.causes = { s.causes with line := true }) ∧
     (cause = .command → t.causes = { s.causes with command := true }) ∧
     (cause = .line ∨ cause = .command → t.liftMark = (s.liftMark || decide (0 < s.lock.lift))) ∧
     (cause = .cold →
       t = { State.reset with
         store := s.store, media := t.media, nextPhase := s.nextPhase, presented := s.presented, port := t.port, supply := s.supply
         checkWord := s.checkWord, resetLine := s.resetLine, freeDraws := s.freeDraws
         pending := s.pending } ∧
       t.siteKey = 0 ∧
       t.tariff = { taxRate := 0, siteClamp := 3, houseCeiling := 2, discreetClass := 8, liftMinutes := 30 } ∧
       t.stay = { state := .vacant, number := 0, seconds := 0, ceiling := 0, credit := 0, discount := 0 } ∧
       t.lock = { pin := none, tries := 0, lockout := 0, lift := 0 } ∧ t.titles = [] ∧
       t.charges =
         { lastIssued := 0, acknowledged := 0, netTotal := 0, taxTotal := 0, count := 0, list := []
           current := none, staged := none, write := none } ∧
       t.causes = { cold := true, dip := false, line := false, command := false } ∧ t.liftMark = false) ∧
     (cause = .dip → t.causes = ⟨false, true, false, false⟩ ∧ t.liftMark = decide (0 < s.lock.lift)) ∧
     (s.port = .free → t.port = .free) ∧ (s.port = .media → t.port = .media) ∧
     (∀ a addr data o, s.port = .house a addr data o → t.port = .house a addr data true) ∧
     (cause ≠ .cold →
       t.siteKey = s.siteKey ∧ t.tariff = s.tariff ∧ t.stay = s.stay ∧ t.lock = { s.lock with lift := 0 } ∧
       t.charges.list = s.charges.list.map (fun i => { i with written := false }) ∧
       t.charges.lastIssued = s.charges.lastIssued ∧ t.charges.acknowledged = s.charges.acknowledged ∧
       t.charges.netTotal = s.charges.netTotal ∧ t.charges.taxTotal = s.charges.taxTotal ∧ t.charges.count = s.charges.count ∧
       t.titles = (s.titles.filter (fun e => decide (e.state ≠ .offered))).map
         (fun e => { e with seenMain := false, seenMosaic := false }))) ∧
  Lane.unbound =
    { binding := none, alignment := .hunt, good := 0, bad := 0, reference := none, slice := [], assembly := none } ∧
  AnchorLatches.cleared =
    { commandBase := 0, commandSlots := 0, commandTail := 0, reportBase := 0, reportSlots := 0, reportTail := 0 } ∧
  Requests.none = { command := false, report := false, log := false }

/-- The records of commands are read back whole: for every well-formed command that has a record, the record decodes to the
command, and so does every record that agrees with it on the tag, the code and the parameter bytes that section 12.4 names for the
code, whatever the other bytes hold (R144): bytes 5 to 7, byte 11 of BIND and every byte behind the parameters are not read. A
record's code, tag and parameters stand at the bytes of section 12.4, most significant byte first. Every report and every charge record is 32 bytes, a report with no payload has bytes 8 to 31 all 0,
and LOST_BEFORE changes bit 0 of byte 1 alone (R163). The fields of result reports, of event reports and of charge records stand at
the bytes of sections 12.5 and 12.6, most significant byte first, with their codes, and every other byte is 0. That byte 8 of
STAY_QUERY's payload carries the stay state by the part word's codes is the model's choice of log entry 25 (DESIGN CHOICE,
unsafe). The eight words that a report write or a LOG write carries spell these bytes (R124, R146, R163). -/
def Obligations.CommandRecordsAreReadBackWhole : Prop :=
  (∀ (i : Instr) (r : List Byte), wellFormed i = true → encodeRecord i = some r → r.length = 32 ∧ decodeRecord r = i) ∧
  (∀ (i : Instr) (r other : List Byte), wellFormed i = true → encodeRecord i = some r →
     let parameters := [0, 8, 7, 19, 0, 0, 4, 6, 4, 2, 10, 1, 9, 0, 10, 18, 2, 0].getD (numberAt r 4 1) 0
     (∀ k, k < 5 ∨ 8 ≤ k ∧ k < 8 + parameters ∧ ¬ (numberAt r 4 1 = 0x0A ∧ k = 11) → other.getD k 0 = r.getD k 0) →
     decodeRecord other = i) ∧
  (∀ (i : Instr) (r : List Byte), r.length = 32 → decodeRecord r = i →
     let pinAt := fun (p : PinField) (k : Nat) => (p.length :: p.places) = (r.drop k).take 9
     (∀ tag code params, recordFields i = some (tag, code, params) →
       numberAt r 0 4 = tag.toNat ∧ numberAt r 4 1 = code.toNat) ∧
     (match i with
      | .siteKey _ key => numberAt r 4 1 = 0x01 ∧ numberAt r 8 8 = key.toNat
      | .tariff _ tax clamp house discreet minutes =>
        numberAt r 4 1 = 0x02 ∧ numberAt r 8 2 = tax.toNat ∧ numberAt r 10 1 = clamp.toNat ∧ numberAt r 11 1 = house.toNat ∧
          numberAt r 12 1 = discreet.toNat ∧ numberAt r 13 2 = minutes.toNat
      | .openStay _ number ceiling credit discount pin =>
        numberAt r 4 1 = 0x03 ∧ numberAt r 8 4 = number.toNat ∧ numberAt r 12 1 = ceiling.toNat ∧
          numberAt r 13 4 = credit.toNat ∧ numberAt r 17 1 = discount.toNat ∧ pinAt pin 18
      | .closeStay _ => numberAt r 4 1 = 0x04
      | .stayQuery _ => numberAt r 4 1 = 0x05
      | .ackCharges _ sequence => numberAt r 4 1 = 0x06 ∧ numberAt r 8 4 = sequence.toNat
      | .logRegion _ base slots => numberAt r 4 1 = 0x07 ∧ numberAt r 8 4 = base.toNat ∧ numberAt r 12 2 = slots.toNat
      | .setCredit _ limit => numberAt r 4 1 = 0x08 ∧ numberAt r 8 4 = limit.toNat
      | .buy _ title => numberAt r 4 1 = 0x09 ∧ numberAt r 8 2 = title.toNat
      | .bind _ lane role service base slots =>
        numberAt r 4 1 = 0x0A ∧ numberAt r 8 1 = lane.toNat ∧ numberAt r 9 1 = role.toNat ∧ numberAt r 10 1 = service.toNat ∧
          numberAt r 12 4 = base.toNat ∧ numberAt r 16 2 = slots.toNat
      | .unbind _ lane => numberAt r 4 1 = 0x0B ∧ numberAt r 8 1 = lane.toNat
      | .unlock _ pin => numberAt r 4 1 = 0x0C ∧ pinAt pin 8
      | .relock _ => numberAt r 4 1 = 0x0D
      | .setCeiling _ ceiling pin => numberAt r 4 1 = 0x0E ∧ numberAt r 8 1 = ceiling.toNat ∧ pinAt pin 9
      | .changePin _ old new => numberAt r 4 1 = 0x0F ∧ pinAt old 8 ∧ pinAt new 17
      | .queryTitle _ title => numberAt r 4 1 = 0x10 ∧ numberAt r 8 2 = title.toNat
      | .restart _ => numberAt r 4 1 = 0x11
      | .unknown _ _ => numberAt r 4 1 = 0 ∨ 0x11 < numberAt r 4 1
      | _ => False)) ∧
  (∀ x : Report,
     (reportWords x).length = 8 ∧ (reportWords x).flatMap wordBytes = reportBytes x.body x.lost) ∧
  (∀ c : ChargeRecord, (chargeWords c).length = 8 ∧ (chargeWords c).flatMap wordBytes = chargeBytes c) ∧
  ((∀ (b : ReportBody) (lost : Bool),
     (reportBytes b lost).length = 32 ∧ (reportBytes b lost)[1]? = some (if lost then 1 else 0) ∧
     ∀ i, i ≠ 1 → (reportBytes b lost)[i]? = (reportBytes b false)[i]?) ∧
   (∀ (tag : Word) (code : Byte) (r : ResultCode) (lost : Bool) (i : Nat), 8 ≤ i → i < 32 →
     (reportBytes (.result tag code r .absent) lost)[i]? = some 0) ∧
   ∀ c : ChargeRecord, (chargeBytes c).length = 32) ∧
  (∀ (tag : Word) (code : Byte) (r : ResultCode) (lost : Bool),
    let field := fun (p : Payload) (i n : Nat) => numberAt (reportBytes (.result tag code r p) lost) i n
    (∀ p, field p 0 1 = 1 ∧ field p 2 1 = code.toNat ∧ field p 4 4 = tag.toNat ∧
      field p 3 1 =
        [ResultCode.done, .unknown, .badFormat, .stayOpen, .stayBusy, .noStay, .closing, .laneBusy, .laneIdle, .overlap,
          .noDirectory, .roleTaken, .pinWrong, .lockedOut, .noTitle, .rating, .credit, .logFull, .already, .free,
          .stagedFull].idxOf r) ∧
    (∀ t : Tariff, field (.tariff t) 8 2 = t.taxRate % 2 ^ 16 ∧ field (.tariff t) 10 1 = t.siteClamp % 2 ^ 8 ∧
      field (.tariff t) 11 1 = t.houseCeiling % 2 ^ 8 ∧ field (.tariff t) 12 1 = t.discreetClass % 2 ^ 8 ∧
      field (.tariff t) 13 2 = t.liftMinutes % 2 ^ 16 ∧ field (.tariff t) 15 17 = 0) ∧
    (∀ c k d, field (.openStay c k d) 8 1 = c % 2 ^ 8 ∧ field (.openStay c k d) 9 4 = k % 2 ^ 32 ∧
      field (.openStay c k d) 13 1 = d % 2 ^ 8 ∧ field (.openStay c k d) 14 18 = 0) ∧
    (∀ q n t c, field (.closeStay q n t c) 8 4 = q % 2 ^ 32 ∧ field (.closeStay q n t c) 12 4 = n % 2 ^ 32 ∧
      field (.closeStay q n t c) 16 4 = t % 2 ^ 32 ∧ field (.closeStay q n t c) 20 4 = c % 2 ^ 32 ∧
      field (.closeStay q n t c) 24 8 = 0) ∧
    (∀ y n t k l a,
      field (.stayQuery y n t k l a) 8 1 = [StayState.vacant, .occupied, .closing].idxOf y ∧
      field (.stayQuery y n t k l a) 9 3 = 0 ∧ field (.stayQuery y n t k l a) 12 4 = n % 2 ^ 32 ∧
      field (.stayQuery y n t k l a) 16 4 = t % 2 ^ 32 ∧ field (.stayQuery y n t k l a) 20 4 = k % 2 ^ 32 ∧
      field (.stayQuery y n t k l a) 24 4 = l % 2 ^ 32 ∧ field (.stayQuery y n t k l a) 28 4 = a % 2 ^ 32) ∧
    (∀ a l, field (.ackCharges a l) 8 4 = a % 2 ^ 32 ∧ field (.ackCharges a l) 12 4 = l % 2 ^ 32 ∧
      field (.ackCharges a l) 16 16 = 0) ∧
    (∀ staged, field (.logRegion staged) 8 1 = (if staged then 1 else 0) ∧ field (.logRegion staged) 9 23 = 0) ∧
    (∀ l k, field (.setCredit l k) 8 4 = l % 2 ^ 32 ∧ field (.setCredit l k) 12 4 = k % 2 ^ 32 ∧
      field (.setCredit l k) 16 16 = 0) ∧
    (∀ n, field (.setCreditSpent n) 8 4 = n % 2 ^ 32 ∧ field (.setCreditSpent n) 12 20 = 0) ∧
    (∀ q n t z k, field (.buy q n t z k) 8 4 = q % 2 ^ 32 ∧ field (.buy q n t z k) 12 4 = n % 2 ^ 32 ∧
      field (.buy q n t z k) 16 4 = t % 2 ^ 32 ∧ field (.buy q n t z k) 20 4 = z % 2 ^ 32 ∧
      field (.buy q n t z k) 24 4 = k % 2 ^ 32 ∧ field (.buy q n t z k) 28 4 = 0) ∧
    (∀ t k, field (.buyCredit t k) 8 4 = t % 2 ^ 32 ∧ field (.buyCredit t k) 12 4 = k % 2 ^ 32 ∧
      field (.buyCredit t k) 16 16 = 0) ∧
    (∀ l, field (.unlock l) 8 2 = l % 2 ^ 16 ∧ field (.unlock l) 10 22 = 0) ∧
    (∀ c, field (.setCeiling c) 8 1 = c % 2 ^ 8 ∧ field (.setCeiling c) 9 23 = 0) ∧
    (∀ n, field (.triesLeft n) 8 1 = n % 2 ^ 8 ∧ field (.triesLeft n) 9 23 = 0) ∧
    (∀ n, field (.lockedOut n) 8 2 = n % 2 ^ 16 ∧ field (.lockedOut n) 10 22 = 0) ∧
    (∀ st rating used limit price left q,
      let p := Payload.queryTitle st rating used limit price left q
      field p 8 1 = (match st with
        | .offered => 0
        | .preview => 1
        | .exhausted => 2
        | .purchased _ _ => 3
        | .lapsed _ _ => 4) ∧
      field p 9 1 = rating % 2 ^ 8 ∧ field p 10 2 = used % 2 ^ 16 ∧ field p 12 2 = limit % 2 ^ 16 ∧
      field p 14 2 = price % 2 ^ 16 ∧ field p 16 4 = left % 2 ^ 32 ∧ field p 20 4 = q % 2 ^ 32 ∧ field p 24 8 = 0)) ∧
  (∀ lost : Bool,
    let field := fun (e : Event) (i n : Nat) => numberAt (reportBytes (.event e) lost) i n
    (∀ e, field e 0 1 = 2 ∧ field e 3 5 = 0) ∧
    (∀ c : Causes, field (.restarted c) 2 1 = 0x01 ∧ field (.restarted c) 9 23 = 0 ∧
      field (.restarted c) 8 1 =
        (if c.cold then 1 else 0) + (if c.dip then 2 else 0) + (if c.line then 4 else 0) + (if c.command then 8 else 0)) ∧
    (∀ (l : Fin 4) (v : Byte), field (.laneLocked l v) 2 1 = 0x02 ∧ field (.laneLocked l v) 8 1 = l.val ∧
      field (.laneLocked l v) 9 1 = v.toNat ∧ field (.laneLocked l v) 10 22 = 0) ∧
    (∀ (l : Fin 4) (v : Byte), field (.laneLost l v) 2 1 = 0x03 ∧ field (.laneLost l v) 8 1 = l.val ∧
      field (.laneLost l v) 9 1 = v.toNat ∧ field (.laneLost l v) 10 22 = 0) ∧
    (∀ t r, field (.previewStarted t r) 2 1 = 0x04 ∧ field (.previewStarted t r) 8 2 = t.toNat ∧
      field (.previewStarted t r) 10 1 = [Role.main, .mosaic].idxOf r ∧ field (.previewStarted t r) 11 21 = 0) ∧
    (∀ t q, field (.purchased t q) 2 1 = 0x05 ∧ field (.purchased t q) 8 2 = t.toNat ∧ field (.purchased t q) 10 2 = 0 ∧
      field (.purchased t q) 12 4 = q % 2 ^ 32 ∧ field (.purchased t q) 16 16 = 0) ∧
    (∀ t r, field (.previewEnded t r) 2 1 = 0x06 ∧ field (.previewEnded t r) 8 2 = t.toNat ∧
      field (.previewEnded t r) 11 21 = 0 ∧
      (r = .mosaic → field (.previewEnded t r) 10 1 = 0x80) ∧ (r = .failed .rating → field (.previewEnded t r) 10 1 = 15) ∧
      (r = .failed .credit → field (.previewEnded t r) 10 1 = 16) ∧
      (r = .failed .logFull → field (.previewEnded t r) 10 1 = 17) ∧
      (r = .failed .free → field (.previewEnded t r) 10 1 = 19)) ∧
    (∀ t, field (.rentalLapsed t) 2 1 = 0x07 ∧ field (.rentalLapsed t) 8 2 = t.toNat ∧ field (.rentalLapsed t) 10 22 = 0) ∧
    (∀ t, field (.titleTableFull t) 2 1 = 0x08 ∧ field (.titleTableFull t) 8 2 = t.toNat ∧
      field (.titleTableFull t) 10 22 = 0) ∧
    (∀ r, field (.liftEnded r) 2 1 = 0x09 ∧
      field (.liftEnded r) 8 1 = [LiftReason.expired, .relock, .close, .restart].idxOf r ∧ field (.liftEnded r) 9 23 = 0) ∧
    (∀ n, field (.lockoutStarted n) 2 1 = 0x0A ∧ field (.lockoutStarted n) 8 2 = n % 2 ^ 16 ∧
      field (.lockoutStarted n) 10 22 = 0) ∧
    (field .lockoutEnded 2 1 = 0x0B ∧ field .lockoutEnded 8 24 = 0) ∧
    (∀ o n, field (.logRegionNeeded o n) 2 1 = 0x0C ∧
      field (.logRegionNeeded o n) 8 1 = [RegionOutcome.stagedTaken, .noneLeft].idxOf o ∧
      field (.logRegionNeeded o n) 9 1 = n % 2 ^ 8 ∧ field (.logRegionNeeded o n) 10 22 = 0) ∧
    (∀ n, field (.stayVacant n) 2 1 = 0x0D ∧ field (.stayVacant n) 8 4 = n.toNat ∧ field (.stayVacant n) 12 20 = 0)) ∧
  (∀ (sequence second spent : Nat) (stay : Word),
    (∀ discreet title service net tax,
      let field := numberAt (chargeBytes ⟨sequence, stay, second, spent, .purchase discreet title service net tax⟩)
      field 0 4 = sequence % 2 ^ 32 ∧ field 4 4 = stay.toNat ∧ field 8 1 = 1 ∧ field 9 1 = (if discreet then 1 else 0) ∧
        field 10 2 = title.toNat ∧ field 12 3 = 0 ∧ field 15 1 = service.toNat ∧ field 16 4 = second % 2 ^ 32 ∧
        field 20 4 = spent % 2 ^ 32 ∧ field 24 4 = net % 2 ^ 32 ∧ field 28 4 = tax % 2 ^ 32) ∧
    (∀ count netTotal taxTotal,
      let field := numberAt (chargeBytes ⟨sequence, stay, second, spent, .close count netTotal taxTotal⟩)
      field 0 4 = sequence % 2 ^ 32 ∧ field 4 4 = stay.toNat ∧ field 8 1 = 2 ∧ field 9 3 = 0 ∧
        field 12 4 = count % 2 ^ 32 ∧ field 16 4 = second % 2 ^ 32 ∧ field 20 4 = spent % 2 ^ 32 ∧
        field 24 4 = netTotal % 2 ^ 32 ∧ field 28 4 = taxTotal % 2 ^ 32))

/-! ## Reports and the charge log (chapters 8 and 10) -/

/-- REPORT_TAKE: with the ring not OPEN or full, the report and those behind it are dropped and the overflow mark is set; that
they all go in this one step is the model's reading of log entry 15 (DEDUCED) of "takes the next report at once". Else a
write of the oldest begins at the report head, carrying LOST_BEFORE when the mark is set, which clears it, and REPORT asks
for the store port (R146, R147). The ring is full when the report head + 1 equals the latched report tail, modulo the slot count
(R146). -/
def Obligations.AReportIsTakenFromTheQueue : Prop :=
  (∀ (s : State) (r : Report) (rest : List Report),
    s.tick = TickWork.none → s.working = true → s.reportWrite = none → s.reports = r :: rest →
    (s.reportRing.isOpen = false ∨ s.reportRingFull = true →
      exec .reportTake s = .next { s with reports := [], overflow := true }) ∧
    (∀ base n h, s.reportRing = .inForce base n h → s.reportRingFull = false →
      let w : ReportWrite := ⟨{ r with lost := r.lost || s.overflow }, base + h * 32, false⟩
      let p := { s with reports := rest, reportWrite := some w, overflow := false }
      (s.port = .free →
        exec .reportTake s =
          .next { p with
            port := .house .report (base + h * 32) (reportWords w.report) false
            requests := { s.requests with report := false }
            rotation := toEnd s.rotation .report }) ∧
      (s.port ≠ .free → exec .reportTake s = .next { p with requests := { s.requests with report := true } }))) ∧
  (∀ s : State, s.reportRingFull = true ↔
    ∃ base n h, s.reportRing = .inForce base n h ∧ (h + 1) % n = s.anchor.reportTail.toNat % n)

/-- REPORT_WRITE_COMPLETE: the words of the write stand in the store at their place, byte for byte, the 32 bytes of the report's
record where they are its words, and no other byte of it changes (R146, R163); the report head
advances; the cause flags are cleared by a RESTARTED report and the lift mark by LIFT_ENDED (RESTART); the attention line
follows; and the store port is handed on (R13, R146, R149, R151). That the freed port is decided before the next report's request
can count is the model's choice of log entry 23 (DESIGN CHOICE, unsafe). -/
def Obligations.AReportWriteCompletes : Prop :=
  ∀ (s : State) (addr base n h : Nat) (data : List Word) (w : ReportWrite),
    s.tick = TickWork.none → s.working = true → s.port = .house .report addr data false → s.reportWrite = some w →
    s.reportRing = .inForce base n h →
    let p := { s with
      store := Memory.writeWords s.store addr (data.map houseWord)
      causes := if w.report.isRestarted then Causes.none else s.causes
      liftMark := if w.report.isLiftRestart then false else s.liftMark
      reportRing := .inForce base n ((h + 1) % n)
      reportWrite := none
      attention := decide ((h + 1) % n ≠ s.anchor.reportTail.toNat % n) }
    exec .reportWriteComplete s = .next p.handOver ∧ p.handOver.store = p.store ∧
    (StoreSafe s →
      (∀ i, i < 4 * data.length → Memory.read p.store (addr + i) = (ofWords data).getD i 0) ∧
      (data = reportWords w.report →
        ∀ i, i < 32 → Memory.read p.store (addr + i) = (reportBytes w.report.body w.report.lost).getD i 0)) ∧
    ∀ b, (b < addr ∨ addr + 4 * data.length ≤ b) → Memory.read p.store b = Memory.read s.store b

/-- LOG_WRITE_BEGIN: with a current region, no LOG write in progress and an unwritten record in the list, the write of the
oldest such record begins at the region's write index, and LOG asks for the store port (R124). LOG_WRITE_COMPLETE: the words
stand in the store at their place, byte for byte, the 32 bytes of the charge record where they are its words, and no other byte
changes (R124, R163); a record still listed is marked written, and one acknowledged
meanwhile is not; the write index advances; a region that is now full gives way to the staged one or to none, with
LOG_REGION_NEEDED; and the store port is handed on (R13, R124, R125). That the freed port is decided before the request for the
next record can count is the model's choice of log entry 23 (DESIGN CHOICE, unsafe). -/
def Obligations.ALogWriteBeginsAndCompletes : Prop :=
  (∀ (s : State) (g : LogRegion) (before after : List ChargeItem) (i : ChargeItem),
     s.tick = TickWork.none → s.working = true → s.charges.current = some g → s.charges.write = none →
     s.charges.list = before ++ i :: after → (∀ x ∈ before, x.written = true) → i.written = false →
     let place := g.base + g.index * 32
     let p := { s with charges := { s.charges with write := some ⟨i.record, place, true⟩ } }
     (s.port = .free →
       exec .logWriteBegin s =
         .next { p with
           port := .house .log place (chargeWords i.record) false
           requests := { s.requests with log := false }
           rotation := toEnd s.rotation .log }) ∧
     (s.port ≠ .free → exec .logWriteBegin s = .next { p with requests := { s.requests with log := true } })) ∧
  (∀ (s : State) (addr : Nat) (data : List Word) (w : LogWrite) (g : LogRegion),
     s.tick = TickWork.none → s.working = true → s.port = .house .log addr data false → s.charges.write = some w →
     s.charges.current = some g →
     let list := if w.listed then
         s.charges.list.map (fun i => if i.record.sequence = w.record.sequence then { i with written := true } else i)
       else s.charges.list
     let waiting := (list.filter (fun i => !i.written)).length
     let p := { s with
       store := Memory.writeWords s.store addr (data.map houseWord)
       charges := { s.charges with list := list, write := none } }
     (g.index + 1 ≠ g.slots →
       exec .logWriteComplete s =
         .next { p with charges := { p.charges with current := some { g with index := g.index + 1 } } }.handOver) ∧
     (∀ st, g.index + 1 = g.slots → s.charges.staged = some st →
       exec .logWriteComplete s =
         .next ({ p with charges := { p.charges with current := some ⟨st.base, st.slots, 0⟩, staged := none } }.raiseEvent
           (.logRegionNeeded .stagedTaken waiting)).handOver) ∧
     (g.index + 1 = g.slots → s.charges.staged = none →
       exec .logWriteComplete s =
         .next ({ p with charges := { p.charges with current := none } }.raiseEvent
           (.logRegionNeeded .noneLeft waiting)).handOver) ∧
     (StoreSafe s →
       (∀ i, i < 4 * data.length → Memory.read p.store (addr + i) = (ofWords data).getD i 0) ∧
       (data = chargeWords w.record →
         ∀ i, i < 32 → Memory.read p.store (addr + i) = (chargeBytes w.record).getD i 0)) ∧
     ∀ b, (b < addr ∨ addr + 4 * data.length ≤ b) → Memory.read p.store b = Memory.read s.store b)

/-- HOUSE_ACCESS_DISCARDED: an orphaned access reaches its last word. Its words stand in the store and no other byte changes; it
advances no head, sets no flag and makes no report; its fetch or report write, when it is still in progress, is over; and
the store port is handed on (R11, R13, R15). -/
def Obligations.AnOrphanChangesNothingButTheStore : Prop :=
  ∀ (s : State) (a : Agent) (addr : Nat) (data : List Word),
    s.tick = TickWork.none → s.inRun = true → s.port = .house a addr data true →
    let p := { s with
      store := Memory.writeWords s.store addr (data.map houseWord)
      fetch := if a = Agent.command ∧ s.requests.command = false then none else s.fetch
      reportWrite := if a = Agent.report ∧ s.requests.report = false then none else s.reportWrite }
    exec .houseAccessDiscarded s = .next p.handOver ∧ p.handOver.commandRing = s.commandRing ∧
    p.handOver.reportRing = s.reportRing ∧ p.handOver.reports = s.reports ∧ p.handOver.charges = s.charges ∧
    (StoreSafe s → ∀ i, i < 4 * data.length → Memory.read p.handOver.store (addr + i) = (ofWords data).getD i 0) ∧
    ∀ b, (b < addr ∨ addr + 4 * data.length ≤ b) → Memory.read p.handOver.store b = Memory.read s.store b

/-! ## Ticks (chapters 5, 6 and 9) -/

/-- SECONDS_TICK of a working part: the tick count begins again; stay seconds rise by 1 in an open stay, holding at 2^32 − 1,
and stand still in VACANT; a lift or lockout remainder above 1 falls by 1; and nothing else changes but what the meter does (R71,
R88, R91, R138, R139). The model's choices of log entry 6: a remainder at 1 stays and waits for its own row; the meter acts at
once, up to a step that is a row of its own, unless the lock unit has a report to hand at the same tick, when the manual lets
either hand first (R145) and the model leaves open whether the meter has begun. The meter, with no entry at its preview's end and
no rental that lapses, acts from the most recent entry to the least: it counts each seen OFFERED or PREVIEW entry of an OCCUPIED
stay by one second, makes it PREVIEW, and hands PREVIEW_STARTED with the role for each that was OFFERED, in that order, as far as
the queue has room; it leaves every other entry, clears every seen flag, and has no work outstanding (R71, R72, R75). -/
def Obligations.ASecondsTickAdvancesStayAndMeter : Prop :=
  (∀ s : State, s.tick = TickWork.none → s.working = true →
     ∃ b : State,
       b =
         { s with
           tickCount := 0
           stay := if s.stay.state = .vacant then s.stay else
             { s.stay with seconds := min (s.stay.seconds + 1) (2 ^ 32 - 1) }
           lock :=
             { s.lock with
               lift := if s.lock.lift = 1 then 1 else s.lock.lift - 1
               lockout := if s.lock.lockout = 1 then 1 else s.lock.lockout - 1 }
           tick :=
             { meter := s.titles.reverse.map TitleEntry.number
               lift := decide (s.lock.lift = 1)
               lockout := decide (s.lock.lockout = 1) }
           freeDraws := b.freeDraws } ∧
       (s.lock.lift ≠ 1 → s.lock.lockout ≠ 1 →
         b.freeDraws = s.freeDraws ∧ exec .secondsTick s = .next b.runMeter) ∧
       (s.lock.lift = 1 ∨ s.lock.lockout = 1 →
         exec .secondsTick s = .next b ∨ exec .secondsTick s = .next b.runMeter)) ∧
  (∀ u : State, (u.titles.map TitleEntry.number).Nodup → u.tick.meter = u.titles.reverse.map TitleEntry.number →
     let counted := fun e : TitleEntry =>
       u.stay.state == .occupied && (e.state == .offered || e.state == .preview) && (e.seenMain || e.seenMosaic)
     (∀ e ∈ u.titles, (counted e = true → e.used + 1 ≠ e.limit) ∧
       ∀ second sequence, e.state = .purchased second sequence → u.stay.state ≠ .vacant → e.seenMain = false →
         u.stay.seconds < second + e.hours * 3600) →
     let started := (u.titles.reverse.filter (fun e => counted e && e.state == .offered)).map (fun e =>
       (⟨.event (.previewStarted e.number (if e.seenMain then .main else .mosaic)), false⟩ : Report))
     ∃ titles reports overflow,
       u.runMeter =
         { u with titles := titles, reports := reports, overflow := overflow, tick := { u.tick with meter := [] } } ∧
       titles =
         u.titles.map (fun e =>
           if counted e then { e with used := e.used + 1, state := .preview, seenMain := false, seenMosaic := false }
           else { e with seenMain := false, seenMosaic := false }) ∧
       (u.reports.length ≤ 16 →
         reports = (u.reports ++ started).take 16 ∧
           overflow = (u.overflow || decide (16 < u.reports.length + started.length))))

/-- PREVIEW_END at the entry where the meter stands: seen on the main picture it is bought at the tick's stay second, with
PURCHASED, when every check of the commit passes, and becomes EXHAUSTED with the failed result otherwise; seen only in a
mosaic window it becomes EXHAUSTED with MOSAIC (R71, R72, R73, R74, R78). The model's choices of log entry 6: the row is taken at
the entry where the meter stands, to which a meter that has not begun first goes on, and the meter then goes on with the entries
behind it, which changes nothing but the title table, the queue of reports and the tick's work. -/
def Obligations.APreviewEndsInPurchaseOrExhaustion : Prop :=
  (∀ (s : State) (n : BitVec 16) (rest : List (BitVec 16)) (e : TitleEntry),
     s.tick.meter = n :: rest → s.title? n = some e → s.stay.state = .occupied → e.used + 1 = e.limit →
     (e.state = .offered ∨ e.state = .preview) → (e.seenMain = true ∨ e.seenMosaic = true) →
     let counted := { e with used := e.used + 1, state := .preview }
     let p := s.updateTitle n (fun x => { x with used := x.used + 1, state := .preview })
     let started := if e.state = .offered then
         p.raiseEvent (.previewStarted n (if e.seenMain then .main else .mosaic)) else p
     let ended := fun u : State =>
       exec .previewEnd s = .next (State.meterRun rest (u.updateTitle n (fun x => { x with seenMain := false, seenMosaic := false })))
     let exhausted := fun r => (started.updateTitle n (fun x => { x with state := .exhausted })).raiseEvent (.previewEnded n r)
     (e.seenMain = false → ended (exhausted .mosaic)) ∧
     (∀ r, e.seenMain = true → started.commitEntryCheck counted = some r → ended (exhausted (.failed r))) ∧
     (e.seenMain = true → started.commitEntryCheck counted = none →
       ended ((started.makeCommit counted s.stay.seconds).raiseEvent (.purchased n (s.charges.lastIssued + 1))))) ∧
  (∀ s t : State, s.runMeter.previewEndStep = some t →
    exec .previewEnd s = .next t ∧ exec .previewEnd s.runMeter = .next t) ∧
  (∀ (rest : List (BitVec 16)) (u : State),
    let v := State.meterRun rest u
    v = { u with titles := v.titles, reports := v.reports, overflow := v.overflow, tick := v.tick } ∧
    v.titles.map TitleEntry.number = u.titles.map TitleEntry.number)

/-- RENTAL_LAPSED at the entry where the meter stands: a due rental not seen on the main picture becomes LAPSED with its second
and sequence kept, with RENTAL_LAPSED (R75). LIFT_EXPIRED and LOCKOUT_ENDED: the remainder reaches 0 and its event is
reported (R88, R91, R92). The model's choices: that these are rows that stand outstanding after SECONDS_TICK, and that a meter
that has not begun first goes on to where it stands (log entry 6), and that a row of the tick with no such work changes nothing
(log entry 5). -/
def Obligations.TheOtherStepsOfATick : Prop :=
  ∀ s : State,
    (∀ n rest e second sequence, s.tick.meter = n :: rest → s.title? n = some e →
      e.state = .purchased second sequence → s.stay.state ≠ .vacant → second + e.hours * 3600 ≤ s.stay.seconds →
      e.seenMain = false → (s.titles.map TitleEntry.number).Nodup →
      exec .rentalLapsed s =
        .next (State.meterRun rest
          ((s.updateTitle n (fun x => { x with state := .lapsed second sequence, seenMain := false, seenMosaic := false })).raiseEvent
            (.rentalLapsed n)))) ∧
    (∀ t, s.runMeter.rentalLapsedStep = some t →
      exec .rentalLapsed s = .next t ∧ exec .rentalLapsed s.runMeter = .next t) ∧
    (s.tick.lift = true →
      exec .liftExpired s =
        .next ({ s with lock := { s.lock with lift := 0 }, tick := { s.tick with lift := false } }.raiseEvent
          (.liftEnded .expired))) ∧
    (s.tick.lockout = true →
      exec .lockoutEnded s =
        .next ({ s with lock := { s.lock with lockout := 0 }, tick := { s.tick with lockout := false } }.raiseEvent
          .lockoutEnded)) ∧
    (s.tick = TickWork.none →
      exec .previewEnd s = .next s ∧ exec .rentalLapsed s = .next s ∧ exec .liftExpired s = .next s ∧
        exec .lockoutEnded s = .next s)

/-! ## Supply, retention and restart (chapter 11) -/

/-- SUPPLY_SAMPLE by its level, in millivolts, in each supply state, and SUPPLY_RECOVER and SUPPLY_RELAPSE (R153, R155). The
transitions that end RUN and enter it are those of ENTER_RETAIN and ENTER_RUN. The model's choices: samples are in millivolts and
one that completes a count makes the transition itself (log entry 12), with no word of a burst passed at its cut (log entry 8)
and no byte of the store changed at its entry to RUN (log entry 3, unsafe). -/
def Obligations.SuppliesAreSampled : Prop :=
  ∀ (s : State) (mv : Nat), s.tick = TickWork.none →
    (∀ low, s.supply = .run low →
      (mv < 2850 → low ≠ 31 → exec (.supplySample mv) s = .next { s with supply := .run (low + 1) }) ∧
      (mv < 2850 → low = 31 → exec (.supplySample mv) s = exec (.enterRetain []) s) ∧
      (2850 ≤ mv → exec (.supplySample mv) s = .next { s with supply := .run 0 })) ∧
    (s.supply = .retain →
      (3050 < mv → exec (.supplySample mv) s = .next { s with supply := .recover 1 }) ∧
      (mv ≤ 3050 → exec (.supplySample mv) s = .next s) ∧
      exec .supplyRecover s = .next { s with supply := .recover 1 }) ∧
    (∀ good, s.supply = .recover good →
      (mv < 2850 → exec (.supplySample mv) s = .next { s with supply := .retain }) ∧
      (2850 ≤ mv → mv ≤ 3050 → exec (.supplySample mv) s = .next { s with supply := .recover 0 }) ∧
      (3050 < mv → good ≠ 4095 → exec (.supplySample mv) s = .next { s with supply := .recover (good + 1) }) ∧
      (3050 < mv → good = 4095 → exec (.supplySample mv) s = exec (.enterRun []) s) ∧
      exec .supplyRelapse s = .next { s with supply := .retain })

/-- ENTER_RETAIN at the 32nd low sample: the check word is computed over the retained store as it stands, the store port is
freed, a media transaction with a word left is held at its next word with its count of passed words and its binding ended, one
with none left is complete, a cut write has stored the words that passed and no other, the volatile items take the values of a restart, no cause and no lift mark
is held, and every retained item is kept but the OFFERED entries and the seen and written flags (R6, R127, R151, R154, R157,
R158). The model's choices: the volatile items take those values already here, not at the restart (log entry 18, DEDUCED), a
transaction that still waits for the store port is held too (log entry 14, DEDUCED), the operand says which words without a
row of their own passed before the cut (log entry 8, DESIGN CHOICE), and a command phase not yet taken does not stand at the media
port over the hold (log entry 24, DESIGN CHOICE). -/
def Obligations.EnteringRetainSealsTheRetainedStore : Prop :=
  ∀ (s : State) (passed : List WriteWord), s.tick = TickWork.none → s.supply = .run 31 →
    ∃ t, exec (.enterRetain passed) s = .next t ∧ t.supply = .retain ∧ t.checkWord = some s.computeCheck ∧
      t.computeCheck = s.computeCheck ∧ t.checkHolds = true ∧ t.retained = s.retained ∧ t.port = .free ∧ t.nextPhase = none ∧
      (s.media = none → t.media = none) ∧
      (∀ m, s.media = some m →
        let done := if m.phase = .data ∧ m.wordByWord = false then m.passed + min passed.length m.left else m.passed
        (m.phase ≠ .data ∨ done < m.count →
          t.media = some { m with phase := .held, passed := done, bound := false, judged := none }) ∧
        (m.phase = .data → m.count ≤ done → t.media = none)) ∧
      t.commandRing = .closed ∧ t.reportRing = .closed ∧ t.anchor = AnchorLatches.cleared ∧ t.attention = false ∧
      t.lanes = Four.all Lane.unbound ∧ t.slots = Four.all none ∧ t.reports = [] ∧ t.overflow = false ∧
      t.requests = Requests.none ∧ t.waitCount = 0 ∧ t.rotation = Agent.restartOrder ∧ t.fetch = none ∧
      t.reportWrite = none ∧ t.refused = [] ∧ t.tickCount = 0 ∧ t.causes = Causes.none ∧ t.liftMark = false ∧
      t.charges.current = none ∧ t.charges.staged = none ∧ t.charges.write = none ∧
      t.charges.list.map ChargeItem.record = s.charges.list.map ChargeItem.record ∧
      t.charges.lastIssued = s.charges.lastIssued ∧ t.charges.acknowledged = s.charges.acknowledged ∧
      t.siteKey = s.siteKey ∧ t.tariff = s.tariff ∧ t.stay = s.stay ∧ t.lock = s.lock ∧
      (s.port = .free → s.media.map MediaTxn.phase ≠ some .data → t.store = s.store) ∧
      (∀ a addr data o, s.port = .house a addr data o → s.media.map MediaTxn.phase ≠ some .data →
        t.store = Memory.writeWords s.store addr ((data.take passed.length).map houseWord) ∧
        ∀ b, (b < addr ∨ addr + 4 * min passed.length data.length ≤ b) → Memory.read t.store b = Memory.read s.store b) ∧
      (∀ m, s.port = .media → s.media = some m → m.phase = .data →
        (m.dir = .read ∨ m.wordByWord = true → t.store = s.store) ∧
        (m.dir = .write → m.wordByWord = false → t.store = Memory.writeWords s.store m.nextAddr (passed.take m.left)) ∧
        ∀ b, (m.dir = .read ∨ m.wordByWord = true ∨ b < m.nextAddr ∨ m.nextAddr + 4 * min passed.length m.left ≤ b) →
          Memory.read t.store b = Memory.read s.store b)

/-- ENTER_RUN at the 4,096th good sample: a restart of cause DIP when a check word is held and equals one computed afresh over the
retained store, else of cause COLD; the supply state is RUN with low count 0 and no check word is held (R155, R156, R157).
POWER_ON leaves the part in RETAIN with no check word held, so the next entry to RUN is a COLD restart (R156). RETAINED_STORE_DECAY
outside RUN leaves contents in the retained store that may be others, and nothing else changed, and they, bit by bit, are what
the comparison finds (R157). The model's choices: the store devices come up with the bytes of the operand (log entry 3), POWER_ON
drops a media transaction (log entry 13, DEDUCED), the contents a decay leaves are a free value, any that the store has room for
(log entry 11), a decay in RUN, where the store is fed, leaves the state as it is (log entry 5), and the last clause rests on the
check's generator, a free value, and on the order, the widths and the counted layout of the retained bits, which are the model's
own (log entry 10, DESIGN CHOICE, unsafe for these three). -/
def Obligations.EnteringRunComparesTheCheckWord : Prop :=
  (∀ (s : State) (changed : List (BitVec 26 × Byte)), s.tick = TickWork.none → s.supply = .recover 4095 →
     let t := fun cause =>
       { s.restart cause with supply := .run 0, checkWord := none, store := Memory.change s.store changed }
     (s.checkWord = some (cyclicCheck s.retained.bits) → exec (.enterRun changed) s = .next (t .dip)) ∧
     (s.checkWord ≠ some (cyclicCheck s.retained.bits) → exec (.enterRun changed) s = .next (t .cold)) ∧
     (t .dip).stay = s.stay ∧ (t .dip).lock = { s.lock with lift := 0 } ∧
     (t .dip).siteKey = s.siteKey ∧ (t .dip).tariff = s.tariff ∧ (t .dip).liftMark = decide (0 < s.lock.lift) ∧
     (t .dip).titles =
       (s.titles.filter (fun e => decide (e.state ≠ .offered))).map (fun e => { e with seenMain := false, seenMosaic := false }) ∧
     (t .dip).causes = ⟨false, true, false, false⟩ ∧ (t .cold).causes = ⟨true, false, false, false⟩ ∧
     ((changed = []) → (t .dip).store = s.store)) ∧
  (∀ s : State, s.tick = TickWork.none →
     (∃ t, exec .powerOn s = .next t ∧ t.supply = .retain ∧ t.checkWord = none ∧ t.checkHolds = false ∧ t.port = .free ∧
       t.media = none ∧ t.commandRing = .closed ∧ t.reportRing = .closed ∧ t.lanes = Four.all Lane.unbound ∧
       t.attention = false ∧ t.causes = Causes.none ∧ t.store = s.store) ∧
     (s.inRun = true → exec .retainedStoreDecay s = .next s) ∧
     (s.inRun = false →
       exec .retainedStoreDecay s =
         .next { s.decay (Config.decayedStore s.freeDraws) with freeDraws := s.freeDraws + 1 })) ∧
  (∀ (s : State) (left : Retained),
     let t := s.decay left
     (left.inWidth = false → t = s) ∧
     (left.inWidth = true →
       t =
         { s with
           siteKey := left.siteKey, tariff := left.tariff, stay := left.stay, lock := left.lock
           titles := left.titles, charges := t.charges } ∧
       t.charges =
         { s.charges with
           list := t.charges.list, lastIssued := left.lastIssued, acknowledged := left.acknowledged
           netTotal := left.netTotal, taxTotal := left.taxTotal, count := left.count } ∧
       t.retained = left ∧
       ∀ before run changed after : List Bool, s.checkHolds = true → s.retained.bits = before ++ run ++ after →
         left.bits = before ++ changed ++ after → run.length = changed.length → run.length ≤ 32 → run ≠ changed →
         t.checkHolds = false))

/-- RESET_ASSERT in RUN holds the part: a media transaction with a word left is held at its next word with its count of passed
words, one with none left is complete, its store burst is ended, a cut write having stored the words that passed and no other, a
house access that holds the store port becomes an orphan, the tick count is abandoned, and no retained item changes. RESET_RELEASE in RUN
runs a restart of cause LINE. Outside RUN each moves only the line (R6, R138, R156, R159). The model's choices: a transaction that
still waits for the store port is held too, and the release makes no grant (log entry 14, DEDUCED, unsafe), the operand says
which words without a row of their own passed before the cut (log entry 8, DESIGN CHOICE), and a command phase not yet taken does
not stand at the media port over the hold (log entry 24, DESIGN CHOICE). Outside RUN and under the reset line no media word passes
or completes and no held transaction resumes, no fetch, report write or LOG write begins or completes with its effects, no command
executes and no tick is taken; outside RUN no discarded access completes either (R6, R154, R158, R159). That the row of such an
event then leaves the state as it is is the model's choice of log entry 5 (DESIGN CHOICE, safe). -/
def Obligations.TheResetLineHoldsAndRestarts : Prop :=
  ∀ (s : State) (passed : List WriteWord), s.tick = TickWork.none →
    (s.resetLine = false → s.inRun = false → exec (.resetAssert passed) s = .next { s with resetLine := true }) ∧
    (s.resetLine = false → s.inRun = true →
      ∃ t, exec (.resetAssert passed) s = .next t ∧ t.resetLine = true ∧ t.tickCount = 0 ∧ t.working = false ∧
        (s.port = .media → t.port = .free) ∧ (s.port = .free → t.port = .free) ∧
        (∀ a addr data o, s.port = .house a addr data o → t.port = .house a addr data true) ∧
        t.nextPhase = none ∧
        (∀ m, s.media = some m →
          let done := if m.phase = .data ∧ m.wordByWord = false then m.passed + min passed.length m.left else m.passed
          (m.phase ≠ .data ∨ done < m.count → t.media = some { m with phase := .held, passed := done }) ∧
          (m.phase = .data → m.count ≤ done → t.media = none)) ∧
        (s.media.map MediaTxn.phase ≠ some .data → t.store = s.store) ∧
        (∀ m, s.media = some m → m.phase = .data →
          (m.dir = .read ∨ m.wordByWord = true → t.store = s.store) ∧
          (m.dir = .write → m.wordByWord = false → t.store = Memory.writeWords s.store m.nextAddr (passed.take m.left)) ∧
          ∀ b, (m.dir = .read ∨ m.wordByWord = true ∨ b < m.nextAddr ∨ m.nextAddr + 4 * min passed.length m.left ≤ b) →
            Memory.read t.store b = Memory.read s.store b) ∧
        (s.media = none → t.media = none) ∧
        t.stay = s.stay ∧ t.lock = s.lock ∧ t.tariff = s.tariff ∧ t.titles = s.titles ∧ t.charges = s.charges ∧
        t.siteKey = s.siteKey ∧ t.lanes = s.lanes ∧ t.slots = s.slots ∧ t.supply = s.supply) ∧
    (s.resetLine = true → s.inRun = false → exec .resetRelease s = .next { s with resetLine := false }) ∧
    (s.resetLine = true → s.inRun = true → exec .resetRelease s = .next { s.restart .line with resetLine := false }) ∧
    ((s.inRun = false ∨ s.resetLine = true) →
      (∀ (words : List WriteWord) (w : WriteWord),
        ∀ c ∈ [Instr.mediaTransactionComplete words, .mediaResume, .anchorWrite w, .commandRingSlots w, .reportRingSlots w,
          .commandTail w, .reportTail w, .headerWrite w, .payloadWrite w, .laneReadWord, .commandFetchRequest, .reportTake,
          .reportWriteComplete, .logWriteBegin, .logWriteComplete, .secondsTick], exec c s = .next s) ∧
      ∀ c, (recordFields c).isSome = true → exec c s = .next s) ∧
    (s.inRun = false → exec .houseAccessDiscarded s = .next s)

/-- The check word is computed over every bit of the retained items, so that contents that differ in any item differ in their
bits, and it changes when any run of up to 32 consecutive bits of them changes (R157). The generator and the preset are free
values, so this holds for every generator with an x^0 term; the order of the bits, how many each item has, and how a varying number
of PIN digits, titles and records is laid out are the model's own (log entry 10, DESIGN CHOICE, unsafe). -/
def Obligations.TheCheckWordDetectsShortChanges : Prop :=
  (∀ s : State,
     s.computeCheck = cyclicCheck s.retained.bits ∧
       s.retained =
         { siteKey := s.siteKey, tariff := s.tariff, stay := s.stay, lock := s.lock
           titles :=
             (s.titles.filter (fun e => decide (e.state ≠ .offered))).map
               (fun e => { e with seenMain := false, seenMosaic := false })
           records := s.charges.list.map ChargeItem.record
           lastIssued := s.charges.lastIssued, acknowledged := s.charges.acknowledged
           netTotal := s.charges.netTotal, taxTotal := s.charges.taxTotal, count := s.charges.count }) ∧
  (∀ a b : Retained, a.inWidth = true → b.inWidth = true → a.bits = b.bits → a = b) ∧
  (∀ before run changed after : List Bool, run.length = changed.length → run.length ≤ 32 → run ≠ changed →
     cyclicCheck (before ++ run ++ after) ≠ cyclicCheck (before ++ changed ++ after))

/-! ## The invariants that every step keeps -/

/-- Every step keeps the store in its canonical form, MEDIA holding the store port exactly in a media data phase and a command phase
untaken only behind a transaction in flight, the arbiter's
items in their ranges with one request at most for each agent, the attention line on its condition, and the pending queue and the
refused list within 16 (section 1.5, R1, R13, R68, R145, R151). -/
def Obligations.StepsKeepStoreArbiterAndQueues : Prop :=
  KeptByStep StoreSafe ∧ KeptByStep PortSafe ∧ KeptByStep ArbiterSafe ∧ KeptByStep AttentionSafe ∧ KeptByStep QueueSafe

/-- Every step keeps the charge list as R119 gives it, and the spent amount of an open stay within its credit limit (R114, R118),
where the part stands by its retained items: in RUN, and outside it while its check word agrees with them (R156). A decay that
alters the retained store without altering its check word is left out by DecayCaught. -/
def Obligations.StepsKeepChargesAndCredit : Prop := KeptWhereTrusted ChargeListSafe ∧ KeptWhereTrusted CreditSafe

/-- Every step keeps the lock unit, the stay and the tariff within their ranges (section 6.2, R83, R84, R88, R129, R130), and the
title table as R64, R65 and R80 give it, where the part stands by its retained items: in RUN, and outside it while its check word
agrees with them (R156). A decay that alters the retained store without altering its check word is left out by DecayCaught. -/
def Obligations.StepsKeepLockAndTitles : Prop := KeptWhereTrusted LockSafe ∧ KeptWhereTrusted TitleSafe

/-- Every step keeps the lanes within the directory with one MAIN at most (R17, R20), one service slot for each bound service
with its reference count (R47), and the ranges the part uses in the store apart and inside it (R2, R3, R10, R17, R122). -/
def Obligations.StepsKeepLanesSlotsAndRanges : Prop := KeptByStep LaneSafe ∧ KeptByStep SlotSafe ∧ KeptByStep GeometrySafe

/-- Every step keeps the supply watch's counts in range, with no check word held in RUN and no tick or LOG write in progress
outside it (R153, R154); and between the end of RUN and the next entry to RUN no step but a decay alters the retained store, and
none but POWER_ON the check word (R155). -/
def Obligations.StepsKeepTheSealedStore : Prop :=
  KeptByStep SupplySafe ∧
  (∀ s t : State, SupplySafe s → s.inRun = false → step s = .next t → t.inRun = false →
     ((∀ rest, s.pending ≠ .retainedStoreDecay :: rest) → t.retained = s.retained) ∧
     ((∀ rest, s.pending ≠ .powerOn :: rest) → t.checkWord = s.checkWord))
end

