-- ==== Sys2Proof/Laws/Bytes.lean ====
section
/-! SUPPORT. Byte order round trips: the bytes of a word give the word back, and the word of four bytes gives the bytes. -/

namespace Sys2Proof.Machine

/-- Byte 0 of a word of four bytes is the one at the lowest address. -/
@[simp] theorem byteOf_be32_0 (a b c d : Byte) : byteOf (be32 a b c d) 0 = a := by
  apply BitVec.eq_of_getLsbD_eq
  intro i hi
  simp only [byteOf, be32, BitVec.getLsbD_extractLsb', BitVec.getLsbD_append]
  have k0 : ¬ 24 - 8 * 0 + i < 8 := by omega
  have k1 : ¬ 24 - 8 * 0 + i - 8 < 8 := by omega
  have k2 : ¬ 24 - 8 * 0 + i - 8 - 8 < 8 := by omega
  have e : 24 - 8 * 0 + i - 8 - 8 - 8 = i := by omega
  simp only [k0, k1, k2, e, hi, if_false, decide_true, Bool.true_and]

@[simp] theorem byteOf_be32_1 (a b c d : Byte) : byteOf (be32 a b c d) 1 = b := by
  apply BitVec.eq_of_getLsbD_eq
  intro i hi
  simp only [byteOf, be32, BitVec.getLsbD_extractLsb', BitVec.getLsbD_append]
  have k0 : ¬ 24 - 8 * 1 + i < 8 := by omega
  have k1 : ¬ 24 - 8 * 1 + i - 8 < 8 := by omega
  have e : 24 - 8 * 1 + i - 8 - 8 = i := by omega
  simp only [k0, k1, e, hi, if_true, if_false, decide_true, Bool.true_and]

@[simp] theorem byteOf_be32_2 (a b c d : Byte) : byteOf (be32 a b c d) 2 = c := by
  apply BitVec.eq_of_getLsbD_eq
  intro i hi
  simp only [byteOf, be32, BitVec.getLsbD_extractLsb', BitVec.getLsbD_append]
  have k0 : ¬ 24 - 8 * 2 + i < 8 := by omega
  have e : 24 - 8 * 2 + i - 8 = i := by omega
  simp only [k0, e, hi, if_true, if_false, decide_true, Bool.true_and]

@[simp] theorem byteOf_be32_3 (a b c d : Byte) : byteOf (be32 a b c d) 3 = d := by
  apply BitVec.eq_of_getLsbD_eq
  intro i hi
  simp only [byteOf, be32, BitVec.getLsbD_extractLsb', BitVec.getLsbD_append]
  have e : 24 - 8 * 3 + i = i := by omega
  simp only [e, hi, if_true, decide_true, Bool.true_and]

/-- A word is made of its four bytes. -/
@[simp] theorem be32_byteOf (w : Word) : be32 (byteOf w 0) (byteOf w 1) (byteOf w 2) (byteOf w 3) = w := by
  apply BitVec.eq_of_getLsbD_eq; intro i hi
  simp only [byteOf, be32, BitVec.getLsbD_extractLsb', BitVec.getLsbD_append]
  by_cases h1 : i < 8
  · simp [h1]
  · by_cases h2 : i < 16
    · have : i - 8 < 8 := by omega
      have e : 8 + (i - 8) = i := by omega
      simp [h1, this, e]
    · by_cases h3 : i < 24
      · have k1 : ¬ i - 8 < 8 := by omega
        have k2 : i - 8 - 8 < 8 := by omega
        have e : 16 + (i - 8 - 8) = i := by omega
        simp [h1, k1, k2, e]
      · have k1 : ¬ i - 8 < 8 := by omega
        have k2 : ¬ i - 8 - 8 < 8 := by omega
        have k3 : i - 8 - 8 - 8 < 8 := by omega
        have e : 24 + (i - 8 - 8 - 8) = i := by omega
        simp [h1, k1, k2, k3, e]

/-- A 16-bit field is made of its two bytes. -/
@[simp] theorem be16_halfBytes (h : BitVec 16) : be16 (h.extractLsb' 8 8) (h.extractLsb' 0 8) = h := by
  apply BitVec.eq_of_getLsbD_eq; intro i hi
  simp only [be16, BitVec.getLsbD_extractLsb', BitVec.getLsbD_append]
  by_cases h1 : i < 8
  · simp [h1]
  · have k : i - 8 < 8 := by omega
    have e : 8 + (i - 8) = i := by omega
    simp [h1, k, e]

/-- A 64-bit field is made of its two words. -/
@[simp] theorem be64_words (k : BitVec 64) : be64 (k.extractLsb' 32 32) (k.extractLsb' 0 32) = k := by
  apply BitVec.eq_of_getLsbD_eq
  intro i hi
  simp only [be64, BitVec.getLsbD_extractLsb', BitVec.getLsbD_append]
  by_cases h1 : i < 32
  · simp [h1]
  · have k1 : i - 32 < 32 := by omega
    have e : 32 + (i - 32) = i := by omega
    simp [h1, k1, e]

/-- The bytes of a word are four. -/
@[simp] theorem wordBytes_length (w : Word) : (wordBytes w).length = 4 := rfl

@[simp] theorem halfBytes_length (h : BitVec 16) : (halfBytes h).length = 2 := rfl

/-- Fields padded to `n` bytes are `n` bytes when they are no longer than that. -/
theorem padTo_length (n : Nat) (bs : List Byte) (h : bs.length ≤ n) : (padTo n bs).length = n := by
  simp [padTo, zeros]; omega

/-- The words of the bytes of words are those words. -/
@[simp] theorem toWords_ofWords (ws : List Word) : toWords (ofWords ws) = ws := by
  induction ws with
  | nil => rfl
  | cons w rest ih =>
    have : ofWords (w :: rest) = byteOf w 0 :: byteOf w 1 :: byteOf w 2 :: byteOf w 3 :: ofWords rest := rfl
    rw [this, toWords, ih, be32_byteOf]

/-- The words of whole groups of four bytes spell those bytes, and are as many as the groups. -/
theorem ofWords_toWords (n : Nat) : ∀ bs : List Byte, bs.length = 4 * n → (toWords bs).length = n ∧ ofWords (toWords bs) = bs := by
  induction n with
  | zero =>
    intro bs h
    rw [List.length_eq_zero_iff.mp h]
    exact ⟨rfl, rfl⟩
  | succ n ih =>
    intro bs h
    match bs, h with
    | a :: b :: c :: d :: rest, h =>
      have := ih rest (by simp only [List.length_cons] at h; omega)
      simpa [toWords, ofWords, wordBytes] using this

/-- A field made of a high and a low part as a number. -/
theorem append_toNat {n m : Nat} (x : BitVec n) (y : BitVec m) : (x ++ y).toNat = x.toNat * 2 ^ m + y.toNat := by
  rw [BitVec.toNat_append, ← Nat.shiftLeft_add_eq_or_of_lt y.isLt, Nat.shiftLeft_eq]

/-- A word of four bytes as a number, most significant first. -/
theorem be32_toNat (a b c d : Byte) : (be32 a b c d).toNat = ((a.toNat * 256 + b.toNat) * 256 + c.toNat) * 256 + d.toNat := by
  rw [be32, append_toNat, append_toNat, append_toNat]
  rfl

/-- A 16-bit field as a number. -/
theorem be16_toNat (a b : Byte) : (be16 a b).toNat = a.toNat * 256 + b.toNat := by
  rw [be16, append_toNat]
  rfl

/-- A 64-bit field as a number. -/
theorem be64_toNat (a b : Word) : (be64 a b).toNat = a.toNat * 2 ^ 32 + b.toNat := by
  rw [be64, append_toNat]

end Sys2Proof.Machine
end

