-- ==== Sys2Proof/Laws/Memory.lean ====
section
/-! SUPPORT. The laws of the store: what a byte reads as after a write, and that every operation keeps the canonical form. -/

namespace Sys2Proof.Machine

/-- Writing a byte leaves every other byte as it was. -/
theorem Memory.read_write_ne (m : List Host.Cell) (a b : Nat) (v : Byte) (h : b ≠ a) :
    Memory.read (Memory.write m a v) b = Memory.read m b := by
  have h' : ¬ a = b := fun e => h e.symm
  induction m with
  | nil => by_cases hv : v = Config.blankByte <;> simp [Memory.write, Memory.read, hv, h']
  | cons c rest ih =>
    obtain ⟨x, w⟩ := c
    by_cases hx : x < a
    · simp [Memory.write, Memory.read, hx, ih]
    · by_cases he : x = a
      · subst he
        by_cases hv : v = Config.blankByte <;> simp [Memory.write, Memory.read, hv, h']
      · by_cases hv : v = Config.blankByte <;> simp [Memory.write, Memory.read, hx, he, hv, h']

/-- A byte below every listed address reads as an unlisted one. -/
theorem Memory.read_below (m : List Host.Cell) (a : Nat) (h : m.all (fun c => decide (a < c.1)) = true) :
    Memory.read m a = Config.blankByte := by
  induction m with
  | nil => rfl
  | cons c rest ih =>
    obtain ⟨x, w⟩ := c
    simp only [List.all_cons, Bool.and_eq_true, decide_eq_true_eq] at h
    have : ¬ x = a := by omega
    simp [Memory.read, this, ih h.2]

/-- A byte just written reads as written, in a store in its canonical form. -/
theorem Memory.read_write_same (m : List Host.Cell) (a : Nat) (v : Byte) (h : Memory.wf m = true) :
    Memory.read (Memory.write m a v) a = v := by
  induction m with
  | nil => by_cases hv : v = Config.blankByte <;> simp [Memory.write, Memory.read, hv]
  | cons c rest ih =>
    obtain ⟨x, w⟩ := c
    simp only [Memory.wf, Bool.and_eq_true] at h
    obtain ⟨⟨-, hall⟩, hrest⟩ := h
    by_cases hx : x < a
    · have : ¬ x = a := by omega
      simp [Memory.write, Memory.read, hx, this, ih hrest]
    · by_cases he : x = a
      · subst he
        by_cases hv : v = Config.blankByte
        · simp [Memory.write, hv, Memory.read_below rest x hall]
        · simp [Memory.write, Memory.read, hv]
      · by_cases hv : v = Config.blankByte
        · have hall' : ((x, w) :: rest).all (fun c => decide (a < c.1)) = true := by
            simp only [List.all_cons, Bool.and_eq_true, decide_eq_true_eq, List.all_eq_true] at hall ⊢
            exact ⟨by omega, fun c hc => by have := hall c hc; omega⟩
          simp [Memory.write, hx, he, hv, Memory.read_below _ a hall']
        · simp [Memory.write, Memory.read, hx, he, hv]

/-- A lower bound of the listed addresses is one after a write above it. -/
theorem Memory.write_above (m : List Host.Cell) (a b : Nat) (v : Byte)
    (h : m.all (fun c => decide (b < c.1)) = true) (hab : b < a) :
    (Memory.write m a v).all (fun c => decide (b < c.1)) = true := by
  induction m with
  | nil => by_cases hv : v = Config.blankByte <;> simp [Memory.write, hv, hab]
  | cons c rest ih =>
    obtain ⟨x, w⟩ := c
    simp only [List.all_cons, Bool.and_eq_true, decide_eq_true_eq] at h
    have ih' := ih h.2
    by_cases hx : x < a
    · simp only [Memory.write, hx, if_true, List.all_cons, Bool.and_eq_true, decide_eq_true_eq]
      exact ⟨h.1, ih'⟩
    · by_cases he : x = a <;> by_cases hv : v = Config.blankByte <;>
        simp only [Memory.write, hx, he, hv, if_true, if_false, List.all_cons, h.2, hab, decide_true, Bool.and_self,
          Bool.true_and, lt_irrefl]
      · simp [h.1]
      · simp [h.1]

/-- A write keeps the canonical form. -/
theorem Memory.wf_write (m : List Host.Cell) (a : Nat) (v : Byte) (h : Memory.wf m = true) :
    Memory.wf (Memory.write m a v) = true := by
  induction m with
  | nil => by_cases hv : v = Config.blankByte <;> simp [Memory.write, Memory.wf, hv]
  | cons c rest ih =>
    obtain ⟨x, w⟩ := c
    have h0 := h
    simp only [Memory.wf, Bool.and_eq_true] at h
    obtain ⟨⟨hw, hall⟩, hrest⟩ := h
    by_cases hx : x < a
    · simp only [Memory.write, hx, if_true, Memory.wf, Bool.and_eq_true]
      exact ⟨⟨hw, Memory.write_above rest a x v hall hx⟩, ih hrest⟩
    · have hall' : x = a ∨ ((x, w) :: rest).all (fun c => decide (a < c.1)) = true := by
        by_cases he : x = a
        · exact .inl he
        · refine .inr ?_
          simp only [List.all_cons, Bool.and_eq_true, decide_eq_true_eq, List.all_eq_true] at hall ⊢
          exact ⟨by omega, fun c hc => by have := hall c hc; omega⟩
      by_cases hv : v = Config.blankByte
      · by_cases he : x = a <;> simp [Memory.write, hx, he, hv, hrest, h0]
      · rcases hall' with he | hall'
        · subst he
          simp [Memory.write, hv, Memory.wf, hrest]
          simpa using hall
        · have he : ¬ x = a := by
            intro e
            simp [e] at hall'
          simp only [Memory.write, hx, he, hv, if_false, Memory.wf, Bool.and_eq_true, bne_iff_ne, ne_eq, not_false_eq_true,
            true_and]
          exact ⟨hall', ⟨by simpa using hw, hall⟩, hrest⟩

/-- A word of a burst keeps the canonical form. -/
theorem Memory.wf_writeWord (m : List Host.Cell) (a : Nat) (w : WriteWord) (h : Memory.wf m = true) :
    Memory.wf (Memory.writeWord m a w) = true := by
  have step : ∀ (m : List Host.Cell) (i : Nat), Memory.wf m = true →
      Memory.wf (if w.masked i = true then m else Memory.write m (a + i) (byteOf w.data i)) = true := by
    intro m i hm
    split
    · exact hm
    · exact Memory.wf_write m _ _ hm
  simp only [Memory.writeWord, List.foldl_cons, List.foldl_nil]
  exact step _ 3 (step _ 2 (step _ 1 (step _ 0 h)))

/-- Consecutive words keep the canonical form. -/
theorem Memory.wf_writeWords (ws : List WriteWord) : ∀ (m : List Host.Cell) (a : Nat), Memory.wf m = true →
    Memory.wf (Memory.writeWords m a ws) = true := by
  induction ws with
  | nil => intro m a h; exact h
  | cons w rest ih => intro m a h; exact ih _ _ (Memory.wf_writeWord m a w h)

/-- The bytes that the store devices came up with keep the canonical form. -/
theorem Memory.wf_change (cs : List (BitVec 26 × Byte)) : ∀ (m : List Host.Cell), Memory.wf m = true →
    Memory.wf (Memory.change m cs) = true := by
  induction cs with
  | nil => intro m h; exact h
  | cons c rest ih => intro m h; exact ih _ (Memory.wf_write m _ _ h)

/-- The store after reset is in its canonical form. -/
theorem Memory.wf_reset : Memory.wf State.reset.store = true := rfl

/-- A word of a burst leaves every byte outside its four as it was (R1). -/
theorem Memory.read_writeWord_frame (m : List Host.Cell) (a b : Nat) (w : WriteWord) (h : b < a ∨ a + 4 ≤ b) :
    Memory.read (Memory.writeWord m a w) b = Memory.read m b := by
  have step : ∀ (m : List Host.Cell) (i : Nat), i < 4 →
      Memory.read (if w.masked i = true then m else Memory.write m (a + i) (byteOf w.data i)) b = Memory.read m b := by
    intro m i hi
    split
    · rfl
    · exact Memory.read_write_ne m _ b _ (by omega)
  simp only [Memory.writeWord, List.foldl_cons, List.foldl_nil]
  rw [step _ 3 (by omega), step _ 2 (by omega), step _ 1 (by omega), step _ 0 (by omega)]

/-- A byte of a word just written: its own byte of the word, or what stood there when it is masked (R1). -/
theorem Memory.read_writeWord_byte (m : List Host.Cell) (a i : Nat) (w : WriteWord) (h : Memory.wf m = true) (hi : i < 4) :
    Memory.read (Memory.writeWord m a w) (a + i) = if w.masked i = true then Memory.read m (a + i) else byteOf w.data i := by
  have other : ∀ (m : List Host.Cell) (j : Nat), j ≠ i →
      Memory.read (if w.masked j = true then m else Memory.write m (a + j) (byteOf w.data j)) (a + i) =
        Memory.read m (a + i) := by
    intro m j hj
    split
    · rfl
    · exact Memory.read_write_ne m _ _ _ (by omega)
  have own : ∀ (m : List Host.Cell), Memory.wf m = true →
      Memory.read (if w.masked i = true then m else Memory.write m (a + i) (byteOf w.data i)) (a + i) =
        if w.masked i = true then Memory.read m (a + i) else byteOf w.data i := by
    intro m hm
    split
    · rfl
    · exact Memory.read_write_same m _ _ hm
  have keep : ∀ (m : List Host.Cell) (j : Nat), Memory.wf m = true →
      Memory.wf (if w.masked j = true then m else Memory.write m (a + j) (byteOf w.data j)) = true := by
    intro m j hm
    split
    · exact hm
    · exact Memory.wf_write m _ _ hm
  have h1 := keep _ 0 h
  have h2 := keep _ 1 h1
  have h3 := keep _ 2 h2
  simp only [Memory.writeWord, List.foldl_cons, List.foldl_nil]
  have hcases : i = 0 ∨ i = 1 ∨ i = 2 ∨ i = 3 := by omega
  rcases hcases with rfl | rfl | rfl | rfl
  · rw [other _ 3 (by omega), other _ 2 (by omega), other _ 1 (by omega), own _ h]
  · rw [other _ 3 (by omega), other _ 2 (by omega), own _ h1, other _ 0 (by omega)]
  · rw [other _ 3 (by omega), own _ h2, other _ 1 (by omega), other _ 0 (by omega)]
  · rw [own _ h3, other _ 2 (by omega), other _ 1 (by omega), other _ 0 (by omega)]

/-- Consecutive words leave every byte outside theirs as it was (R1). -/
theorem Memory.read_writeWords_frame (ws : List WriteWord) : ∀ (m : List Host.Cell) (a b : Nat),
    b < a ∨ a + 4 * ws.length ≤ b → Memory.read (Memory.writeWords m a ws) b = Memory.read m b := by
  induction ws with
  | nil => intro m a b _; rfl
  | cons w rest ih =>
    intro m a b h
    simp only [List.length_cons] at h
    rw [Memory.writeWords, ih _ _ _ (by omega), Memory.read_writeWord_frame m a b w (by omega)]

/-- The bytes of a house write stand in the store at its place, byte for byte (R124, R146). -/
theorem Memory.read_writeWords_house (data : List Word) : ∀ (m : List Host.Cell) (a i : Nat), Memory.wf m = true →
    i < 4 * data.length → Memory.read (Memory.writeWords m a (data.map houseWord)) (a + i) = (ofWords data).getD i 0 := by
  induction data with
  | nil => intro m a i _ h; simp at h
  | cons w rest ih =>
    intro m a i hm hi
    have ho : ofWords (w :: rest) = wordBytes w ++ ofWords rest := rfl
    simp only [List.map_cons, Memory.writeWords, List.length_cons] at hi ⊢
    by_cases h4 : i < 4
    · rw [Memory.read_writeWords_frame _ _ _ _ (by omega), Memory.read_writeWord_byte _ _ _ _ hm h4, ho,
        List.getD_append _ _ _ _ (by simpa using h4)]
      have hcases : i = 0 ∨ i = 1 ∨ i = 2 ∨ i = 3 := by omega
      rcases hcases with rfl | rfl | rfl | rfl <;> simp [houseWord, WriteWord.masked, wordBytes]
    · obtain ⟨j, rfl⟩ : ∃ j, i = 4 + j := ⟨i - 4, by omega⟩
      rw [← Nat.add_assoc, ih _ _ j (Memory.wf_writeWord _ _ _ hm) (by omega), ho, List.getD_append_right _ _ _ _ (by simp)]
      simp

/-- Words read from the store spell its bytes (R142). -/
theorem Memory.ofWords_readWords (m : List Host.Cell) (n : Nat) : ∀ a : Nat,
    ofWords (Memory.readWords m a n) = (List.range (4 * n)).map (fun i => Memory.read m (a + i)) := by
  induction n with
  | zero => intro a; rfl
  | succ n ih =>
    intro a
    have ho : ofWords (Memory.readWords m a (n + 1)) =
        wordBytes (Memory.readWord m a) ++ ofWords (Memory.readWords m (a + 4) n) := rfl
    rw [ho, ih, show 4 * (n + 1) = 4 + 4 * n by omega, List.range_add, List.map_append, List.map_map]
    simp [Memory.readWord, wordBytes, List.range, List.range.loop, Function.comp_def, Nat.add_assoc]

end Sys2Proof.Machine
end

