-- ==== Sys2Proof/Laws/State.lean ====
section
/-! SUPPORT. What each named update of the state writes and what it keeps: one lemma per field per update. -/

namespace Sys2Proof.Machine

/-! ### State.setLane -/

@[simp] theorem State.setLane_store (s : State) (n : Fin 4) (l : Lane) : (s.setLane n l).store = s.store := rfl
@[simp] theorem State.setLane_media (s : State) (n : Fin 4) (l : Lane) : (s.setLane n l).media = s.media := rfl
@[simp] theorem State.setLane_presented (s : State) (n : Fin 4) (l : Lane) : (s.setLane n l).presented = s.presented := rfl
@[simp] theorem State.setLane_nextPhase (s : State) (n : Fin 4) (l : Lane) : (s.setLane n l).nextPhase = s.nextPhase := rfl
@[simp] theorem State.setLane_anchor (s : State) (n : Fin 4) (l : Lane) : (s.setLane n l).anchor = s.anchor := rfl
@[simp] theorem State.setLane_commandRing (s : State) (n : Fin 4) (l : Lane) : (s.setLane n l).commandRing = s.commandRing := rfl
@[simp] theorem State.setLane_reportRing (s : State) (n : Fin 4) (l : Lane) : (s.setLane n l).reportRing = s.reportRing := rfl
@[simp] theorem State.setLane_port (s : State) (n : Fin 4) (l : Lane) : (s.setLane n l).port = s.port := rfl
@[simp] theorem State.setLane_requests (s : State) (n : Fin 4) (l : Lane) : (s.setLane n l).requests = s.requests := rfl
@[simp] theorem State.setLane_waitCount (s : State) (n : Fin 4) (l : Lane) : (s.setLane n l).waitCount = s.waitCount := rfl
@[simp] theorem State.setLane_rotation (s : State) (n : Fin 4) (l : Lane) : (s.setLane n l).rotation = s.rotation := rfl
@[simp] theorem State.setLane_lanes (s : State) (n : Fin 4) (l : Lane) : (s.setLane n l).lanes = s.lanes.set n l := rfl
@[simp] theorem State.setLane_slots (s : State) (n : Fin 4) (l : Lane) : (s.setLane n l).slots = s.slots := rfl
@[simp] theorem State.setLane_siteKey (s : State) (n : Fin 4) (l : Lane) : (s.setLane n l).siteKey = s.siteKey := rfl
@[simp] theorem State.setLane_titles (s : State) (n : Fin 4) (l : Lane) : (s.setLane n l).titles = s.titles := rfl
@[simp] theorem State.setLane_refused (s : State) (n : Fin 4) (l : Lane) : (s.setLane n l).refused = s.refused := rfl
@[simp] theorem State.setLane_lock (s : State) (n : Fin 4) (l : Lane) : (s.setLane n l).lock = s.lock := rfl
@[simp] theorem State.setLane_stay (s : State) (n : Fin 4) (l : Lane) : (s.setLane n l).stay = s.stay := rfl
@[simp] theorem State.setLane_tariff (s : State) (n : Fin 4) (l : Lane) : (s.setLane n l).tariff = s.tariff := rfl
@[simp] theorem State.setLane_charges (s : State) (n : Fin 4) (l : Lane) : (s.setLane n l).charges = s.charges := rfl
@[simp] theorem State.setLane_fetch (s : State) (n : Fin 4) (l : Lane) : (s.setLane n l).fetch = s.fetch := rfl
@[simp] theorem State.setLane_reports (s : State) (n : Fin 4) (l : Lane) : (s.setLane n l).reports = s.reports := rfl
@[simp] theorem State.setLane_reportWrite (s : State) (n : Fin 4) (l : Lane) : (s.setLane n l).reportWrite = s.reportWrite := rfl
@[simp] theorem State.setLane_overflow (s : State) (n : Fin 4) (l : Lane) : (s.setLane n l).overflow = s.overflow := rfl
@[simp] theorem State.setLane_causes (s : State) (n : Fin 4) (l : Lane) : (s.setLane n l).causes = s.causes := rfl
@[simp] theorem State.setLane_liftMark (s : State) (n : Fin 4) (l : Lane) : (s.setLane n l).liftMark = s.liftMark := rfl
@[simp] theorem State.setLane_attention (s : State) (n : Fin 4) (l : Lane) : (s.setLane n l).attention = s.attention := rfl
@[simp] theorem State.setLane_supply (s : State) (n : Fin 4) (l : Lane) : (s.setLane n l).supply = s.supply := rfl
@[simp] theorem State.setLane_checkWord (s : State) (n : Fin 4) (l : Lane) : (s.setLane n l).checkWord = s.checkWord := rfl
@[simp] theorem State.setLane_resetLine (s : State) (n : Fin 4) (l : Lane) : (s.setLane n l).resetLine = s.resetLine := rfl
@[simp] theorem State.setLane_tickCount (s : State) (n : Fin 4) (l : Lane) : (s.setLane n l).tickCount = s.tickCount := rfl
@[simp] theorem State.setLane_tick (s : State) (n : Fin 4) (l : Lane) : (s.setLane n l).tick = s.tick := rfl
@[simp] theorem State.setLane_freeDraws (s : State) (n : Fin 4) (l : Lane) : (s.setLane n l).freeDraws = s.freeDraws := rfl
@[simp] theorem State.setLane_pending (s : State) (n : Fin 4) (l : Lane) : (s.setLane n l).pending = s.pending := rfl

/-! ### State.setSlot -/

@[simp] theorem State.setSlot_store (s : State) (i : Fin 4) (v : Option ServiceSlot) : (s.setSlot i v).store = s.store := rfl
@[simp] theorem State.setSlot_media (s : State) (i : Fin 4) (v : Option ServiceSlot) : (s.setSlot i v).media = s.media := rfl
@[simp] theorem State.setSlot_presented (s : State) (i : Fin 4) (v : Option ServiceSlot) : (s.setSlot i v).presented = s.presented := rfl
@[simp] theorem State.setSlot_nextPhase (s : State) (i : Fin 4) (v : Option ServiceSlot) : (s.setSlot i v).nextPhase = s.nextPhase := rfl
@[simp] theorem State.setSlot_anchor (s : State) (i : Fin 4) (v : Option ServiceSlot) : (s.setSlot i v).anchor = s.anchor := rfl
@[simp] theorem State.setSlot_commandRing (s : State) (i : Fin 4) (v : Option ServiceSlot) : (s.setSlot i v).commandRing = s.commandRing := rfl
@[simp] theorem State.setSlot_reportRing (s : State) (i : Fin 4) (v : Option ServiceSlot) : (s.setSlot i v).reportRing = s.reportRing := rfl
@[simp] theorem State.setSlot_port (s : State) (i : Fin 4) (v : Option ServiceSlot) : (s.setSlot i v).port = s.port := rfl
@[simp] theorem State.setSlot_requests (s : State) (i : Fin 4) (v : Option ServiceSlot) : (s.setSlot i v).requests = s.requests := rfl
@[simp] theorem State.setSlot_waitCount (s : State) (i : Fin 4) (v : Option ServiceSlot) : (s.setSlot i v).waitCount = s.waitCount := rfl
@[simp] theorem State.setSlot_rotation (s : State) (i : Fin 4) (v : Option ServiceSlot) : (s.setSlot i v).rotation = s.rotation := rfl
@[simp] theorem State.setSlot_lanes (s : State) (i : Fin 4) (v : Option ServiceSlot) : (s.setSlot i v).lanes = s.lanes := rfl
@[simp] theorem State.setSlot_slots (s : State) (i : Fin 4) (v : Option ServiceSlot) : (s.setSlot i v).slots = s.slots.set i v := rfl
@[simp] theorem State.setSlot_siteKey (s : State) (i : Fin 4) (v : Option ServiceSlot) : (s.setSlot i v).siteKey = s.siteKey := rfl
@[simp] theorem State.setSlot_titles (s : State) (i : Fin 4) (v : Option ServiceSlot) : (s.setSlot i v).titles = s.titles := rfl
@[simp] theorem State.setSlot_refused (s : State) (i : Fin 4) (v : Option ServiceSlot) : (s.setSlot i v).refused = s.refused := rfl
@[simp] theorem State.setSlot_lock (s : State) (i : Fin 4) (v : Option ServiceSlot) : (s.setSlot i v).lock = s.lock := rfl
@[simp] theorem State.setSlot_stay (s : State) (i : Fin 4) (v : Option ServiceSlot) : (s.setSlot i v).stay = s.stay := rfl
@[simp] theorem State.setSlot_tariff (s : State) (i : Fin 4) (v : Option ServiceSlot) : (s.setSlot i v).tariff = s.tariff := rfl
@[simp] theorem State.setSlot_charges (s : State) (i : Fin 4) (v : Option ServiceSlot) : (s.setSlot i v).charges = s.charges := rfl
@[simp] theorem State.setSlot_fetch (s : State) (i : Fin 4) (v : Option ServiceSlot) : (s.setSlot i v).fetch = s.fetch := rfl
@[simp] theorem State.setSlot_reports (s : State) (i : Fin 4) (v : Option ServiceSlot) : (s.setSlot i v).reports = s.reports := rfl
@[simp] theorem State.setSlot_reportWrite (s : State) (i : Fin 4) (v : Option ServiceSlot) : (s.setSlot i v).reportWrite = s.reportWrite := rfl
@[simp] theorem State.setSlot_overflow (s : State) (i : Fin 4) (v : Option ServiceSlot) : (s.setSlot i v).overflow = s.overflow := rfl
@[simp] theorem State.setSlot_causes (s : State) (i : Fin 4) (v : Option ServiceSlot) : (s.setSlot i v).causes = s.causes := rfl
@[simp] theorem State.setSlot_liftMark (s : State) (i : Fin 4) (v : Option ServiceSlot) : (s.setSlot i v).liftMark = s.liftMark := rfl
@[simp] theorem State.setSlot_attention (s : State) (i : Fin 4) (v : Option ServiceSlot) : (s.setSlot i v).attention = s.attention := rfl
@[simp] theorem State.setSlot_supply (s : State) (i : Fin 4) (v : Option ServiceSlot) : (s.setSlot i v).supply = s.supply := rfl
@[simp] theorem State.setSlot_checkWord (s : State) (i : Fin 4) (v : Option ServiceSlot) : (s.setSlot i v).checkWord = s.checkWord := rfl
@[simp] theorem State.setSlot_resetLine (s : State) (i : Fin 4) (v : Option ServiceSlot) : (s.setSlot i v).resetLine = s.resetLine := rfl
@[simp] theorem State.setSlot_tickCount (s : State) (i : Fin 4) (v : Option ServiceSlot) : (s.setSlot i v).tickCount = s.tickCount := rfl
@[simp] theorem State.setSlot_tick (s : State) (i : Fin 4) (v : Option ServiceSlot) : (s.setSlot i v).tick = s.tick := rfl
@[simp] theorem State.setSlot_freeDraws (s : State) (i : Fin 4) (v : Option ServiceSlot) : (s.setSlot i v).freeDraws = s.freeDraws := rfl
@[simp] theorem State.setSlot_pending (s : State) (i : Fin 4) (v : Option ServiceSlot) : (s.setSlot i v).pending = s.pending := rfl

/-! ### State.updateTitle -/

@[simp] theorem State.updateTitle_store (s : State) (t : BitVec 16) (f : TitleEntry → TitleEntry) : (s.updateTitle t f).store = s.store := rfl
@[simp] theorem State.updateTitle_media (s : State) (t : BitVec 16) (f : TitleEntry → TitleEntry) : (s.updateTitle t f).media = s.media := rfl
@[simp] theorem State.updateTitle_presented (s : State) (t : BitVec 16) (f : TitleEntry → TitleEntry) : (s.updateTitle t f).presented = s.presented := rfl
@[simp] theorem State.updateTitle_nextPhase (s : State) (t : BitVec 16) (f : TitleEntry → TitleEntry) : (s.updateTitle t f).nextPhase = s.nextPhase := rfl
@[simp] theorem State.updateTitle_anchor (s : State) (t : BitVec 16) (f : TitleEntry → TitleEntry) : (s.updateTitle t f).anchor = s.anchor := rfl
@[simp] theorem State.updateTitle_commandRing (s : State) (t : BitVec 16) (f : TitleEntry → TitleEntry) : (s.updateTitle t f).commandRing = s.commandRing := rfl
@[simp] theorem State.updateTitle_reportRing (s : State) (t : BitVec 16) (f : TitleEntry → TitleEntry) : (s.updateTitle t f).reportRing = s.reportRing := rfl
@[simp] theorem State.updateTitle_port (s : State) (t : BitVec 16) (f : TitleEntry → TitleEntry) : (s.updateTitle t f).port = s.port := rfl
@[simp] theorem State.updateTitle_requests (s : State) (t : BitVec 16) (f : TitleEntry → TitleEntry) : (s.updateTitle t f).requests = s.requests := rfl
@[simp] theorem State.updateTitle_waitCount (s : State) (t : BitVec 16) (f : TitleEntry → TitleEntry) : (s.updateTitle t f).waitCount = s.waitCount := rfl
@[simp] theorem State.updateTitle_rotation (s : State) (t : BitVec 16) (f : TitleEntry → TitleEntry) : (s.updateTitle t f).rotation = s.rotation := rfl
@[simp] theorem State.updateTitle_lanes (s : State) (t : BitVec 16) (f : TitleEntry → TitleEntry) : (s.updateTitle t f).lanes = s.lanes := rfl
@[simp] theorem State.updateTitle_slots (s : State) (t : BitVec 16) (f : TitleEntry → TitleEntry) : (s.updateTitle t f).slots = s.slots := rfl
@[simp] theorem State.updateTitle_siteKey (s : State) (t : BitVec 16) (f : TitleEntry → TitleEntry) : (s.updateTitle t f).siteKey = s.siteKey := rfl
@[simp] theorem State.updateTitle_titles (s : State) (t : BitVec 16) (f : TitleEntry → TitleEntry) : (s.updateTitle t f).titles = s.titles.map (fun e => if e.number == t then f e else e) := rfl
@[simp] theorem State.updateTitle_refused (s : State) (t : BitVec 16) (f : TitleEntry → TitleEntry) : (s.updateTitle t f).refused = s.refused := rfl
@[simp] theorem State.updateTitle_lock (s : State) (t : BitVec 16) (f : TitleEntry → TitleEntry) : (s.updateTitle t f).lock = s.lock := rfl
@[simp] theorem State.updateTitle_stay (s : State) (t : BitVec 16) (f : TitleEntry → TitleEntry) : (s.updateTitle t f).stay = s.stay := rfl
@[simp] theorem State.updateTitle_tariff (s : State) (t : BitVec 16) (f : TitleEntry → TitleEntry) : (s.updateTitle t f).tariff = s.tariff := rfl
@[simp] theorem State.updateTitle_charges (s : State) (t : BitVec 16) (f : TitleEntry → TitleEntry) : (s.updateTitle t f).charges = s.charges := rfl
@[simp] theorem State.updateTitle_fetch (s : State) (t : BitVec 16) (f : TitleEntry → TitleEntry) : (s.updateTitle t f).fetch = s.fetch := rfl
@[simp] theorem State.updateTitle_reports (s : State) (t : BitVec 16) (f : TitleEntry → TitleEntry) : (s.updateTitle t f).reports = s.reports := rfl
@[simp] theorem State.updateTitle_reportWrite (s : State) (t : BitVec 16) (f : TitleEntry → TitleEntry) : (s.updateTitle t f).reportWrite = s.reportWrite := rfl
@[simp] theorem State.updateTitle_overflow (s : State) (t : BitVec 16) (f : TitleEntry → TitleEntry) : (s.updateTitle t f).overflow = s.overflow := rfl
@[simp] theorem State.updateTitle_causes (s : State) (t : BitVec 16) (f : TitleEntry → TitleEntry) : (s.updateTitle t f).causes = s.causes := rfl
@[simp] theorem State.updateTitle_liftMark (s : State) (t : BitVec 16) (f : TitleEntry → TitleEntry) : (s.updateTitle t f).liftMark = s.liftMark := rfl
@[simp] theorem State.updateTitle_attention (s : State) (t : BitVec 16) (f : TitleEntry → TitleEntry) : (s.updateTitle t f).attention = s.attention := rfl
@[simp] theorem State.updateTitle_supply (s : State) (t : BitVec 16) (f : TitleEntry → TitleEntry) : (s.updateTitle t f).supply = s.supply := rfl
@[simp] theorem State.updateTitle_checkWord (s : State) (t : BitVec 16) (f : TitleEntry → TitleEntry) : (s.updateTitle t f).checkWord = s.checkWord := rfl
@[simp] theorem State.updateTitle_resetLine (s : State) (t : BitVec 16) (f : TitleEntry → TitleEntry) : (s.updateTitle t f).resetLine = s.resetLine := rfl
@[simp] theorem State.updateTitle_tickCount (s : State) (t : BitVec 16) (f : TitleEntry → TitleEntry) : (s.updateTitle t f).tickCount = s.tickCount := rfl
@[simp] theorem State.updateTitle_tick (s : State) (t : BitVec 16) (f : TitleEntry → TitleEntry) : (s.updateTitle t f).tick = s.tick := rfl
@[simp] theorem State.updateTitle_freeDraws (s : State) (t : BitVec 16) (f : TitleEntry → TitleEntry) : (s.updateTitle t f).freeDraws = s.freeDraws := rfl
@[simp] theorem State.updateTitle_pending (s : State) (t : BitVec 16) (f : TitleEntry → TitleEntry) : (s.updateTitle t f).pending = s.pending := rfl

/-! ### State.refreshAttention -/

@[simp] theorem State.refreshAttention_store (s : State) : s.refreshAttention.store = s.store := rfl
@[simp] theorem State.refreshAttention_media (s : State) : s.refreshAttention.media = s.media := rfl
@[simp] theorem State.refreshAttention_presented (s : State) : s.refreshAttention.presented = s.presented := rfl
@[simp] theorem State.refreshAttention_nextPhase (s : State) : s.refreshAttention.nextPhase = s.nextPhase := rfl
@[simp] theorem State.refreshAttention_anchor (s : State) : s.refreshAttention.anchor = s.anchor := rfl
@[simp] theorem State.refreshAttention_commandRing (s : State) : s.refreshAttention.commandRing = s.commandRing := rfl
@[simp] theorem State.refreshAttention_reportRing (s : State) : s.refreshAttention.reportRing = s.reportRing := rfl
@[simp] theorem State.refreshAttention_port (s : State) : s.refreshAttention.port = s.port := rfl
@[simp] theorem State.refreshAttention_requests (s : State) : s.refreshAttention.requests = s.requests := rfl
@[simp] theorem State.refreshAttention_waitCount (s : State) : s.refreshAttention.waitCount = s.waitCount := rfl
@[simp] theorem State.refreshAttention_rotation (s : State) : s.refreshAttention.rotation = s.rotation := rfl
@[simp] theorem State.refreshAttention_lanes (s : State) : s.refreshAttention.lanes = s.lanes := rfl
@[simp] theorem State.refreshAttention_slots (s : State) : s.refreshAttention.slots = s.slots := rfl
@[simp] theorem State.refreshAttention_siteKey (s : State) : s.refreshAttention.siteKey = s.siteKey := rfl
@[simp] theorem State.refreshAttention_titles (s : State) : s.refreshAttention.titles = s.titles := rfl
@[simp] theorem State.refreshAttention_refused (s : State) : s.refreshAttention.refused = s.refused := rfl
@[simp] theorem State.refreshAttention_lock (s : State) : s.refreshAttention.lock = s.lock := rfl
@[simp] theorem State.refreshAttention_stay (s : State) : s.refreshAttention.stay = s.stay := rfl
@[simp] theorem State.refreshAttention_tariff (s : State) : s.refreshAttention.tariff = s.tariff := rfl
@[simp] theorem State.refreshAttention_charges (s : State) : s.refreshAttention.charges = s.charges := rfl
@[simp] theorem State.refreshAttention_fetch (s : State) : s.refreshAttention.fetch = s.fetch := rfl
@[simp] theorem State.refreshAttention_reports (s : State) : s.refreshAttention.reports = s.reports := rfl
@[simp] theorem State.refreshAttention_reportWrite (s : State) : s.refreshAttention.reportWrite = s.reportWrite := rfl
@[simp] theorem State.refreshAttention_overflow (s : State) : s.refreshAttention.overflow = s.overflow := rfl
@[simp] theorem State.refreshAttention_causes (s : State) : s.refreshAttention.causes = s.causes := rfl
@[simp] theorem State.refreshAttention_liftMark (s : State) : s.refreshAttention.liftMark = s.liftMark := rfl
@[simp] theorem State.refreshAttention_attention (s : State) : s.refreshAttention.attention = s.attentionDue := rfl
@[simp] theorem State.refreshAttention_supply (s : State) : s.refreshAttention.supply = s.supply := rfl
@[simp] theorem State.refreshAttention_checkWord (s : State) : s.refreshAttention.checkWord = s.checkWord := rfl
@[simp] theorem State.refreshAttention_resetLine (s : State) : s.refreshAttention.resetLine = s.resetLine := rfl
@[simp] theorem State.refreshAttention_tickCount (s : State) : s.refreshAttention.tickCount = s.tickCount := rfl
@[simp] theorem State.refreshAttention_tick (s : State) : s.refreshAttention.tick = s.tick := rfl
@[simp] theorem State.refreshAttention_freeDraws (s : State) : s.refreshAttention.freeDraws = s.freeDraws := rfl
@[simp] theorem State.refreshAttention_pending (s : State) : s.refreshAttention.pending = s.pending := rfl

/-! ### State.passWord -/

@[simp] theorem State.passWord_store (s : State) (t : MediaTxn) : (s.passWord t).store = s.store := rfl
@[simp] theorem State.passWord_media (s : State) (t : MediaTxn) : (s.passWord t).media = some { t with passed := t.passed + 1 } := rfl
@[simp] theorem State.passWord_presented (s : State) (t : MediaTxn) : (s.passWord t).presented = s.presented := rfl
@[simp] theorem State.passWord_nextPhase (s : State) (t : MediaTxn) : (s.passWord t).nextPhase = s.nextPhase := rfl
@[simp] theorem State.passWord_anchor (s : State) (t : MediaTxn) : (s.passWord t).anchor = s.anchor := rfl
@[simp] theorem State.passWord_commandRing (s : State) (t : MediaTxn) : (s.passWord t).commandRing = s.commandRing := rfl
@[simp] theorem State.passWord_reportRing (s : State) (t : MediaTxn) : (s.passWord t).reportRing = s.reportRing := rfl
@[simp] theorem State.passWord_port (s : State) (t : MediaTxn) : (s.passWord t).port = s.port := rfl
@[simp] theorem State.passWord_requests (s : State) (t : MediaTxn) : (s.passWord t).requests = s.requests := rfl
@[simp] theorem State.passWord_waitCount (s : State) (t : MediaTxn) : (s.passWord t).waitCount = s.waitCount := rfl
@[simp] theorem State.passWord_rotation (s : State) (t : MediaTxn) : (s.passWord t).rotation = s.rotation := rfl
@[simp] theorem State.passWord_lanes (s : State) (t : MediaTxn) : (s.passWord t).lanes = s.lanes := rfl
@[simp] theorem State.passWord_slots (s : State) (t : MediaTxn) : (s.passWord t).slots = s.slots := rfl
@[simp] theorem State.passWord_siteKey (s : State) (t : MediaTxn) : (s.passWord t).siteKey = s.siteKey := rfl
@[simp] theorem State.passWord_titles (s : State) (t : MediaTxn) : (s.passWord t).titles = s.titles := rfl
@[simp] theorem State.passWord_refused (s : State) (t : MediaTxn) : (s.passWord t).refused = s.refused := rfl
@[simp] theorem State.passWord_lock (s : State) (t : MediaTxn) : (s.passWord t).lock = s.lock := rfl
@[simp] theorem State.passWord_stay (s : State) (t : MediaTxn) : (s.passWord t).stay = s.stay := rfl
@[simp] theorem State.passWord_tariff (s : State) (t : MediaTxn) : (s.passWord t).tariff = s.tariff := rfl
@[simp] theorem State.passWord_charges (s : State) (t : MediaTxn) : (s.passWord t).charges = s.charges := rfl
@[simp] theorem State.passWord_fetch (s : State) (t : MediaTxn) : (s.passWord t).fetch = s.fetch := rfl
@[simp] theorem State.passWord_reports (s : State) (t : MediaTxn) : (s.passWord t).reports = s.reports := rfl
@[simp] theorem State.passWord_reportWrite (s : State) (t : MediaTxn) : (s.passWord t).reportWrite = s.reportWrite := rfl
@[simp] theorem State.passWord_overflow (s : State) (t : MediaTxn) : (s.passWord t).overflow = s.overflow := rfl
@[simp] theorem State.passWord_causes (s : State) (t : MediaTxn) : (s.passWord t).causes = s.causes := rfl
@[simp] theorem State.passWord_liftMark (s : State) (t : MediaTxn) : (s.passWord t).liftMark = s.liftMark := rfl
@[simp] theorem State.passWord_attention (s : State) (t : MediaTxn) : (s.passWord t).attention = s.attention := rfl
@[simp] theorem State.passWord_supply (s : State) (t : MediaTxn) : (s.passWord t).supply = s.supply := rfl
@[simp] theorem State.passWord_checkWord (s : State) (t : MediaTxn) : (s.passWord t).checkWord = s.checkWord := rfl
@[simp] theorem State.passWord_resetLine (s : State) (t : MediaTxn) : (s.passWord t).resetLine = s.resetLine := rfl
@[simp] theorem State.passWord_tickCount (s : State) (t : MediaTxn) : (s.passWord t).tickCount = s.tickCount := rfl
@[simp] theorem State.passWord_tick (s : State) (t : MediaTxn) : (s.passWord t).tick = s.tick := rfl
@[simp] theorem State.passWord_freeDraws (s : State) (t : MediaTxn) : (s.passWord t).freeDraws = s.freeDraws := rfl
@[simp] theorem State.passWord_pending (s : State) (t : MediaTxn) : (s.passWord t).pending = s.pending := rfl

/-! ### State.nextMedia keeps -/

@[simp] theorem State.nextMedia_store (s : State) : s.nextMedia.store = s.store := rfl
@[simp] theorem State.nextMedia_media (s : State) : s.nextMedia.media = s.nextPhase.map (fun p => s.newTxn p.dir p.addr p.count) := rfl
@[simp] theorem State.nextMedia_presented (s : State) : s.nextMedia.presented = s.presented := rfl
@[simp] theorem State.nextMedia_nextPhase (s : State) : s.nextMedia.nextPhase = none := rfl
@[simp] theorem State.nextMedia_anchor (s : State) : s.nextMedia.anchor = s.anchor := rfl
@[simp] theorem State.nextMedia_commandRing (s : State) : s.nextMedia.commandRing = s.commandRing := rfl
@[simp] theorem State.nextMedia_reportRing (s : State) : s.nextMedia.reportRing = s.reportRing := rfl
@[simp] theorem State.nextMedia_port (s : State) : s.nextMedia.port = s.port := rfl
@[simp] theorem State.nextMedia_requests (s : State) : s.nextMedia.requests = s.requests := rfl
@[simp] theorem State.nextMedia_waitCount (s : State) : s.nextMedia.waitCount = s.waitCount := rfl
@[simp] theorem State.nextMedia_rotation (s : State) : s.nextMedia.rotation = s.rotation := rfl
@[simp] theorem State.nextMedia_lanes (s : State) : s.nextMedia.lanes = s.lanes := rfl
@[simp] theorem State.nextMedia_slots (s : State) : s.nextMedia.slots = s.slots := rfl
@[simp] theorem State.nextMedia_siteKey (s : State) : s.nextMedia.siteKey = s.siteKey := rfl
@[simp] theorem State.nextMedia_titles (s : State) : s.nextMedia.titles = s.titles := rfl
@[simp] theorem State.nextMedia_refused (s : State) : s.nextMedia.refused = s.refused := rfl
@[simp] theorem State.nextMedia_lock (s : State) : s.nextMedia.lock = s.lock := rfl
@[simp] theorem State.nextMedia_stay (s : State) : s.nextMedia.stay = s.stay := rfl
@[simp] theorem State.nextMedia_tariff (s : State) : s.nextMedia.tariff = s.tariff := rfl
@[simp] theorem State.nextMedia_charges (s : State) : s.nextMedia.charges = s.charges := rfl
@[simp] theorem State.nextMedia_fetch (s : State) : s.nextMedia.fetch = s.fetch := rfl
@[simp] theorem State.nextMedia_reports (s : State) : s.nextMedia.reports = s.reports := rfl
@[simp] theorem State.nextMedia_reportWrite (s : State) : s.nextMedia.reportWrite = s.reportWrite := rfl
@[simp] theorem State.nextMedia_overflow (s : State) : s.nextMedia.overflow = s.overflow := rfl
@[simp] theorem State.nextMedia_causes (s : State) : s.nextMedia.causes = s.causes := rfl
@[simp] theorem State.nextMedia_liftMark (s : State) : s.nextMedia.liftMark = s.liftMark := rfl
@[simp] theorem State.nextMedia_attention (s : State) : s.nextMedia.attention = s.attention := rfl
@[simp] theorem State.nextMedia_supply (s : State) : s.nextMedia.supply = s.supply := rfl
@[simp] theorem State.nextMedia_checkWord (s : State) : s.nextMedia.checkWord = s.checkWord := rfl
@[simp] theorem State.nextMedia_resetLine (s : State) : s.nextMedia.resetLine = s.resetLine := rfl
@[simp] theorem State.nextMedia_tickCount (s : State) : s.nextMedia.tickCount = s.tickCount := rfl
@[simp] theorem State.nextMedia_tick (s : State) : s.nextMedia.tick = s.tick := rfl
@[simp] theorem State.nextMedia_freeDraws (s : State) : s.nextMedia.freeDraws = s.freeDraws := rfl
@[simp] theorem State.nextMedia_pending (s : State) : s.nextMedia.pending = s.pending := rfl

/-! ### State.storeWord -/

@[simp] theorem State.storeWord_store (s : State) (a : Nat) (w : WriteWord) : (s.storeWord a w).store = Memory.writeWord s.store a w := rfl
@[simp] theorem State.storeWord_media (s : State) (a : Nat) (w : WriteWord) : (s.storeWord a w).media = s.media := rfl
@[simp] theorem State.storeWord_presented (s : State) (a : Nat) (w : WriteWord) : (s.storeWord a w).presented = s.presented := rfl
@[simp] theorem State.storeWord_nextPhase (s : State) (a : Nat) (w : WriteWord) : (s.storeWord a w).nextPhase = s.nextPhase := rfl
@[simp] theorem State.storeWord_anchor (s : State) (a : Nat) (w : WriteWord) : (s.storeWord a w).anchor = s.anchor := rfl
@[simp] theorem State.storeWord_commandRing (s : State) (a : Nat) (w : WriteWord) : (s.storeWord a w).commandRing = s.commandRing := rfl
@[simp] theorem State.storeWord_reportRing (s : State) (a : Nat) (w : WriteWord) : (s.storeWord a w).reportRing = s.reportRing := rfl
@[simp] theorem State.storeWord_port (s : State) (a : Nat) (w : WriteWord) : (s.storeWord a w).port = s.port := rfl
@[simp] theorem State.storeWord_requests (s : State) (a : Nat) (w : WriteWord) : (s.storeWord a w).requests = s.requests := rfl
@[simp] theorem State.storeWord_waitCount (s : State) (a : Nat) (w : WriteWord) : (s.storeWord a w).waitCount = s.waitCount := rfl
@[simp] theorem State.storeWord_rotation (s : State) (a : Nat) (w : WriteWord) : (s.storeWord a w).rotation = s.rotation := rfl
@[simp] theorem State.storeWord_lanes (s : State) (a : Nat) (w : WriteWord) : (s.storeWord a w).lanes = s.lanes := rfl
@[simp] theorem State.storeWord_slots (s : State) (a : Nat) (w : WriteWord) : (s.storeWord a w).slots = s.slots := rfl
@[simp] theorem State.storeWord_siteKey (s : State) (a : Nat) (w : WriteWord) : (s.storeWord a w).siteKey = s.siteKey := rfl
@[simp] theorem State.storeWord_titles (s : State) (a : Nat) (w : WriteWord) : (s.storeWord a w).titles = s.titles := rfl
@[simp] theorem State.storeWord_refused (s : State) (a : Nat) (w : WriteWord) : (s.storeWord a w).refused = s.refused := rfl
@[simp] theorem State.storeWord_lock (s : State) (a : Nat) (w : WriteWord) : (s.storeWord a w).lock = s.lock := rfl
@[simp] theorem State.storeWord_stay (s : State) (a : Nat) (w : WriteWord) : (s.storeWord a w).stay = s.stay := rfl
@[simp] theorem State.storeWord_tariff (s : State) (a : Nat) (w : WriteWord) : (s.storeWord a w).tariff = s.tariff := rfl
@[simp] theorem State.storeWord_charges (s : State) (a : Nat) (w : WriteWord) : (s.storeWord a w).charges = s.charges := rfl
@[simp] theorem State.storeWord_fetch (s : State) (a : Nat) (w : WriteWord) : (s.storeWord a w).fetch = s.fetch := rfl
@[simp] theorem State.storeWord_reports (s : State) (a : Nat) (w : WriteWord) : (s.storeWord a w).reports = s.reports := rfl
@[simp] theorem State.storeWord_reportWrite (s : State) (a : Nat) (w : WriteWord) : (s.storeWord a w).reportWrite = s.reportWrite := rfl
@[simp] theorem State.storeWord_overflow (s : State) (a : Nat) (w : WriteWord) : (s.storeWord a w).overflow = s.overflow := rfl
@[simp] theorem State.storeWord_causes (s : State) (a : Nat) (w : WriteWord) : (s.storeWord a w).causes = s.causes := rfl
@[simp] theorem State.storeWord_liftMark (s : State) (a : Nat) (w : WriteWord) : (s.storeWord a w).liftMark = s.liftMark := rfl
@[simp] theorem State.storeWord_attention (s : State) (a : Nat) (w : WriteWord) : (s.storeWord a w).attention = s.attention := rfl
@[simp] theorem State.storeWord_supply (s : State) (a : Nat) (w : WriteWord) : (s.storeWord a w).supply = s.supply := rfl
@[simp] theorem State.storeWord_checkWord (s : State) (a : Nat) (w : WriteWord) : (s.storeWord a w).checkWord = s.checkWord := rfl
@[simp] theorem State.storeWord_resetLine (s : State) (a : Nat) (w : WriteWord) : (s.storeWord a w).resetLine = s.resetLine := rfl
@[simp] theorem State.storeWord_tickCount (s : State) (a : Nat) (w : WriteWord) : (s.storeWord a w).tickCount = s.tickCount := rfl
@[simp] theorem State.storeWord_tick (s : State) (a : Nat) (w : WriteWord) : (s.storeWord a w).tick = s.tick := rfl
@[simp] theorem State.storeWord_freeDraws (s : State) (a : Nat) (w : WriteWord) : (s.storeWord a w).freeDraws = s.freeDraws := rfl
@[simp] theorem State.storeWord_pending (s : State) (a : Nat) (w : WriteWord) : (s.storeWord a w).pending = s.pending := rfl

/-! ### State.houseWrite -/

@[simp] theorem State.houseWrite_store (s : State) (a : Nat) (d : List Word) : (s.houseWrite a d).store = Memory.writeWords s.store a (d.map houseWord) := rfl
@[simp] theorem State.houseWrite_media (s : State) (a : Nat) (d : List Word) : (s.houseWrite a d).media = s.media := rfl
@[simp] theorem State.houseWrite_presented (s : State) (a : Nat) (d : List Word) : (s.houseWrite a d).presented = s.presented := rfl
@[simp] theorem State.houseWrite_nextPhase (s : State) (a : Nat) (d : List Word) : (s.houseWrite a d).nextPhase = s.nextPhase := rfl
@[simp] theorem State.houseWrite_anchor (s : State) (a : Nat) (d : List Word) : (s.houseWrite a d).anchor = s.anchor := rfl
@[simp] theorem State.houseWrite_commandRing (s : State) (a : Nat) (d : List Word) : (s.houseWrite a d).commandRing = s.commandRing := rfl
@[simp] theorem State.houseWrite_reportRing (s : State) (a : Nat) (d : List Word) : (s.houseWrite a d).reportRing = s.reportRing := rfl
@[simp] theorem State.houseWrite_port (s : State) (a : Nat) (d : List Word) : (s.houseWrite a d).port = s.port := rfl
@[simp] theorem State.houseWrite_requests (s : State) (a : Nat) (d : List Word) : (s.houseWrite a d).requests = s.requests := rfl
@[simp] theorem State.houseWrite_waitCount (s : State) (a : Nat) (d : List Word) : (s.houseWrite a d).waitCount = s.waitCount := rfl
@[simp] theorem State.houseWrite_rotation (s : State) (a : Nat) (d : List Word) : (s.houseWrite a d).rotation = s.rotation := rfl
@[simp] theorem State.houseWrite_lanes (s : State) (a : Nat) (d : List Word) : (s.houseWrite a d).lanes = s.lanes := rfl
@[simp] theorem State.houseWrite_slots (s : State) (a : Nat) (d : List Word) : (s.houseWrite a d).slots = s.slots := rfl
@[simp] theorem State.houseWrite_siteKey (s : State) (a : Nat) (d : List Word) : (s.houseWrite a d).siteKey = s.siteKey := rfl
@[simp] theorem State.houseWrite_titles (s : State) (a : Nat) (d : List Word) : (s.houseWrite a d).titles = s.titles := rfl
@[simp] theorem State.houseWrite_refused (s : State) (a : Nat) (d : List Word) : (s.houseWrite a d).refused = s.refused := rfl
@[simp] theorem State.houseWrite_lock (s : State) (a : Nat) (d : List Word) : (s.houseWrite a d).lock = s.lock := rfl
@[simp] theorem State.houseWrite_stay (s : State) (a : Nat) (d : List Word) : (s.houseWrite a d).stay = s.stay := rfl
@[simp] theorem State.houseWrite_tariff (s : State) (a : Nat) (d : List Word) : (s.houseWrite a d).tariff = s.tariff := rfl
@[simp] theorem State.houseWrite_charges (s : State) (a : Nat) (d : List Word) : (s.houseWrite a d).charges = s.charges := rfl
@[simp] theorem State.houseWrite_fetch (s : State) (a : Nat) (d : List Word) : (s.houseWrite a d).fetch = s.fetch := rfl
@[simp] theorem State.houseWrite_reports (s : State) (a : Nat) (d : List Word) : (s.houseWrite a d).reports = s.reports := rfl
@[simp] theorem State.houseWrite_reportWrite (s : State) (a : Nat) (d : List Word) : (s.houseWrite a d).reportWrite = s.reportWrite := rfl
@[simp] theorem State.houseWrite_overflow (s : State) (a : Nat) (d : List Word) : (s.houseWrite a d).overflow = s.overflow := rfl
@[simp] theorem State.houseWrite_causes (s : State) (a : Nat) (d : List Word) : (s.houseWrite a d).causes = s.causes := rfl
@[simp] theorem State.houseWrite_liftMark (s : State) (a : Nat) (d : List Word) : (s.houseWrite a d).liftMark = s.liftMark := rfl
@[simp] theorem State.houseWrite_attention (s : State) (a : Nat) (d : List Word) : (s.houseWrite a d).attention = s.attention := rfl
@[simp] theorem State.houseWrite_supply (s : State) (a : Nat) (d : List Word) : (s.houseWrite a d).supply = s.supply := rfl
@[simp] theorem State.houseWrite_checkWord (s : State) (a : Nat) (d : List Word) : (s.houseWrite a d).checkWord = s.checkWord := rfl
@[simp] theorem State.houseWrite_resetLine (s : State) (a : Nat) (d : List Word) : (s.houseWrite a d).resetLine = s.resetLine := rfl
@[simp] theorem State.houseWrite_tickCount (s : State) (a : Nat) (d : List Word) : (s.houseWrite a d).tickCount = s.tickCount := rfl
@[simp] theorem State.houseWrite_tick (s : State) (a : Nat) (d : List Word) : (s.houseWrite a d).tick = s.tick := rfl
@[simp] theorem State.houseWrite_freeDraws (s : State) (a : Nat) (d : List Word) : (s.houseWrite a d).freeDraws = s.freeDraws := rfl
@[simp] theorem State.houseWrite_pending (s : State) (a : Nat) (d : List Word) : (s.houseWrite a d).pending = s.pending := rfl

/-! ### State.grantHouse -/

@[simp] theorem State.grantHouse_store (s : State) (a : Agent) : (s.grantHouse a).store = s.store := rfl
@[simp] theorem State.grantHouse_media (s : State) (a : Agent) : (s.grantHouse a).media = s.media := rfl
@[simp] theorem State.grantHouse_presented (s : State) (a : Agent) : (s.grantHouse a).presented = s.presented := rfl
@[simp] theorem State.grantHouse_nextPhase (s : State) (a : Agent) : (s.grantHouse a).nextPhase = s.nextPhase := rfl
@[simp] theorem State.grantHouse_anchor (s : State) (a : Agent) : (s.grantHouse a).anchor = s.anchor := rfl
@[simp] theorem State.grantHouse_commandRing (s : State) (a : Agent) : (s.grantHouse a).commandRing = s.commandRing := rfl
@[simp] theorem State.grantHouse_reportRing (s : State) (a : Agent) : (s.grantHouse a).reportRing = s.reportRing := rfl
@[simp] theorem State.grantHouse_port (s : State) (a : Agent) : (s.grantHouse a).port = .house a (s.houseAddr a) (s.houseData a) false := rfl
@[simp] theorem State.grantHouse_requests (s : State) (a : Agent) : (s.grantHouse a).requests = s.requests.put a false := rfl
@[simp] theorem State.grantHouse_waitCount (s : State) (a : Agent) : (s.grantHouse a).waitCount = s.waitCount := rfl
@[simp] theorem State.grantHouse_rotation (s : State) (a : Agent) : (s.grantHouse a).rotation = toEnd s.rotation a := rfl
@[simp] theorem State.grantHouse_lanes (s : State) (a : Agent) : (s.grantHouse a).lanes = s.lanes := rfl
@[simp] theorem State.grantHouse_slots (s : State) (a : Agent) : (s.grantHouse a).slots = s.slots := rfl
@[simp] theorem State.grantHouse_siteKey (s : State) (a : Agent) : (s.grantHouse a).siteKey = s.siteKey := rfl
@[simp] theorem State.grantHouse_titles (s : State) (a : Agent) : (s.grantHouse a).titles = s.titles := rfl
@[simp] theorem State.grantHouse_refused (s : State) (a : Agent) : (s.grantHouse a).refused = s.refused := rfl
@[simp] theorem State.grantHouse_lock (s : State) (a : Agent) : (s.grantHouse a).lock = s.lock := rfl
@[simp] theorem State.grantHouse_stay (s : State) (a : Agent) : (s.grantHouse a).stay = s.stay := rfl
@[simp] theorem State.grantHouse_tariff (s : State) (a : Agent) : (s.grantHouse a).tariff = s.tariff := rfl
@[simp] theorem State.grantHouse_charges (s : State) (a : Agent) : (s.grantHouse a).charges = s.charges := rfl
@[simp] theorem State.grantHouse_fetch (s : State) (a : Agent) : (s.grantHouse a).fetch = s.fetch := rfl
@[simp] theorem State.grantHouse_reports (s : State) (a : Agent) : (s.grantHouse a).reports = s.reports := rfl
@[simp] theorem State.grantHouse_reportWrite (s : State) (a : Agent) : (s.grantHouse a).reportWrite = s.reportWrite := rfl
@[simp] theorem State.grantHouse_overflow (s : State) (a : Agent) : (s.grantHouse a).overflow = s.overflow := rfl
@[simp] theorem State.grantHouse_causes (s : State) (a : Agent) : (s.grantHouse a).causes = s.causes := rfl
@[simp] theorem State.grantHouse_liftMark (s : State) (a : Agent) : (s.grantHouse a).liftMark = s.liftMark := rfl
@[simp] theorem State.grantHouse_attention (s : State) (a : Agent) : (s.grantHouse a).attention = s.attention := rfl
@[simp] theorem State.grantHouse_supply (s : State) (a : Agent) : (s.grantHouse a).supply = s.supply := rfl
@[simp] theorem State.grantHouse_checkWord (s : State) (a : Agent) : (s.grantHouse a).checkWord = s.checkWord := rfl
@[simp] theorem State.grantHouse_resetLine (s : State) (a : Agent) : (s.grantHouse a).resetLine = s.resetLine := rfl
@[simp] theorem State.grantHouse_tickCount (s : State) (a : Agent) : (s.grantHouse a).tickCount = s.tickCount := rfl
@[simp] theorem State.grantHouse_tick (s : State) (a : Agent) : (s.grantHouse a).tick = s.tick := rfl
@[simp] theorem State.grantHouse_freeDraws (s : State) (a : Agent) : (s.grantHouse a).freeDraws = s.freeDraws := rfl
@[simp] theorem State.grantHouse_pending (s : State) (a : Agent) : (s.grantHouse a).pending = s.pending := rfl

/-! ### State.grantMedia -/

@[simp] theorem State.grantMedia_store (s : State) : s.grantMedia.store = s.store := rfl
@[simp] theorem State.grantMedia_media (s : State) : s.grantMedia.media = s.media.map (fun t => { t with phase := .data, judged := s.judgement t }) := rfl
@[simp] theorem State.grantMedia_presented (s : State) : s.grantMedia.presented = s.presented := rfl
@[simp] theorem State.grantMedia_nextPhase (s : State) : s.grantMedia.nextPhase = s.nextPhase := rfl
@[simp] theorem State.grantMedia_anchor (s : State) : s.grantMedia.anchor = s.anchor := rfl
@[simp] theorem State.grantMedia_commandRing (s : State) : s.grantMedia.commandRing = s.commandRing := rfl
@[simp] theorem State.grantMedia_reportRing (s : State) : s.grantMedia.reportRing = s.reportRing := rfl
@[simp] theorem State.grantMedia_port (s : State) : s.grantMedia.port = .media := rfl
@[simp] theorem State.grantMedia_requests (s : State) : s.grantMedia.requests = s.requests := rfl
@[simp] theorem State.grantMedia_waitCount (s : State) : s.grantMedia.waitCount = s.waitCount := rfl
@[simp] theorem State.grantMedia_rotation (s : State) : s.grantMedia.rotation = s.rotation := rfl
@[simp] theorem State.grantMedia_lanes (s : State) : s.grantMedia.lanes = s.lanes := rfl
@[simp] theorem State.grantMedia_slots (s : State) : s.grantMedia.slots = s.slots := rfl
@[simp] theorem State.grantMedia_siteKey (s : State) : s.grantMedia.siteKey = s.siteKey := rfl
@[simp] theorem State.grantMedia_titles (s : State) : s.grantMedia.titles = s.titles := rfl
@[simp] theorem State.grantMedia_refused (s : State) : s.grantMedia.refused = s.refused := rfl
@[simp] theorem State.grantMedia_lock (s : State) : s.grantMedia.lock = s.lock := rfl
@[simp] theorem State.grantMedia_stay (s : State) : s.grantMedia.stay = s.stay := rfl
@[simp] theorem State.grantMedia_tariff (s : State) : s.grantMedia.tariff = s.tariff := rfl
@[simp] theorem State.grantMedia_charges (s : State) : s.grantMedia.charges = s.charges := rfl
@[simp] theorem State.grantMedia_fetch (s : State) : s.grantMedia.fetch = s.fetch := rfl
@[simp] theorem State.grantMedia_reports (s : State) : s.grantMedia.reports = s.reports := rfl
@[simp] theorem State.grantMedia_reportWrite (s : State) : s.grantMedia.reportWrite = s.reportWrite := rfl
@[simp] theorem State.grantMedia_overflow (s : State) : s.grantMedia.overflow = s.overflow := rfl
@[simp] theorem State.grantMedia_causes (s : State) : s.grantMedia.causes = s.causes := rfl
@[simp] theorem State.grantMedia_liftMark (s : State) : s.grantMedia.liftMark = s.liftMark := rfl
@[simp] theorem State.grantMedia_attention (s : State) : s.grantMedia.attention = s.attention := rfl
@[simp] theorem State.grantMedia_supply (s : State) : s.grantMedia.supply = s.supply := rfl
@[simp] theorem State.grantMedia_checkWord (s : State) : s.grantMedia.checkWord = s.checkWord := rfl
@[simp] theorem State.grantMedia_resetLine (s : State) : s.grantMedia.resetLine = s.resetLine := rfl
@[simp] theorem State.grantMedia_tickCount (s : State) : s.grantMedia.tickCount = s.tickCount := rfl
@[simp] theorem State.grantMedia_tick (s : State) : s.grantMedia.tick = s.tick := rfl
@[simp] theorem State.grantMedia_freeDraws (s : State) : s.grantMedia.freeDraws = s.freeDraws := rfl
@[simp] theorem State.grantMedia_pending (s : State) : s.grantMedia.pending = s.pending := rfl

/-! ### State.withdraw -/

@[simp] theorem State.withdraw_store (s : State) (a : Agent) : (s.withdraw a).store = s.store := rfl
@[simp] theorem State.withdraw_media (s : State) (a : Agent) : (s.withdraw a).media = s.media := rfl
@[simp] theorem State.withdraw_presented (s : State) (a : Agent) : (s.withdraw a).presented = s.presented := rfl
@[simp] theorem State.withdraw_nextPhase (s : State) (a : Agent) : (s.withdraw a).nextPhase = s.nextPhase := rfl
@[simp] theorem State.withdraw_anchor (s : State) (a : Agent) : (s.withdraw a).anchor = s.anchor := rfl
@[simp] theorem State.withdraw_commandRing (s : State) (a : Agent) : (s.withdraw a).commandRing = s.commandRing := rfl
@[simp] theorem State.withdraw_reportRing (s : State) (a : Agent) : (s.withdraw a).reportRing = s.reportRing := rfl
@[simp] theorem State.withdraw_port (s : State) (a : Agent) : (s.withdraw a).port = s.port := rfl
@[simp] theorem State.withdraw_requests (s : State) (a : Agent) : (s.withdraw a).requests = s.requests.put a false := rfl
@[simp] theorem State.withdraw_waitCount (s : State) (a : Agent) : (s.withdraw a).waitCount = if (s.requests.put a false).any then s.waitCount else 0 := rfl
@[simp] theorem State.withdraw_rotation (s : State) (a : Agent) : (s.withdraw a).rotation = s.rotation := rfl
@[simp] theorem State.withdraw_lanes (s : State) (a : Agent) : (s.withdraw a).lanes = s.lanes := rfl
@[simp] theorem State.withdraw_slots (s : State) (a : Agent) : (s.withdraw a).slots = s.slots := rfl
@[simp] theorem State.withdraw_siteKey (s : State) (a : Agent) : (s.withdraw a).siteKey = s.siteKey := rfl
@[simp] theorem State.withdraw_titles (s : State) (a : Agent) : (s.withdraw a).titles = s.titles := rfl
@[simp] theorem State.withdraw_refused (s : State) (a : Agent) : (s.withdraw a).refused = s.refused := rfl
@[simp] theorem State.withdraw_lock (s : State) (a : Agent) : (s.withdraw a).lock = s.lock := rfl
@[simp] theorem State.withdraw_stay (s : State) (a : Agent) : (s.withdraw a).stay = s.stay := rfl
@[simp] theorem State.withdraw_tariff (s : State) (a : Agent) : (s.withdraw a).tariff = s.tariff := rfl
@[simp] theorem State.withdraw_charges (s : State) (a : Agent) : (s.withdraw a).charges = s.charges := rfl
@[simp] theorem State.withdraw_fetch (s : State) (a : Agent) : (s.withdraw a).fetch = s.fetch := rfl
@[simp] theorem State.withdraw_reports (s : State) (a : Agent) : (s.withdraw a).reports = s.reports := rfl
@[simp] theorem State.withdraw_reportWrite (s : State) (a : Agent) : (s.withdraw a).reportWrite = s.reportWrite := rfl
@[simp] theorem State.withdraw_overflow (s : State) (a : Agent) : (s.withdraw a).overflow = s.overflow := rfl
@[simp] theorem State.withdraw_causes (s : State) (a : Agent) : (s.withdraw a).causes = s.causes := rfl
@[simp] theorem State.withdraw_liftMark (s : State) (a : Agent) : (s.withdraw a).liftMark = s.liftMark := rfl
@[simp] theorem State.withdraw_attention (s : State) (a : Agent) : (s.withdraw a).attention = s.attention := rfl
@[simp] theorem State.withdraw_supply (s : State) (a : Agent) : (s.withdraw a).supply = s.supply := rfl
@[simp] theorem State.withdraw_checkWord (s : State) (a : Agent) : (s.withdraw a).checkWord = s.checkWord := rfl
@[simp] theorem State.withdraw_resetLine (s : State) (a : Agent) : (s.withdraw a).resetLine = s.resetLine := rfl
@[simp] theorem State.withdraw_tickCount (s : State) (a : Agent) : (s.withdraw a).tickCount = s.tickCount := rfl
@[simp] theorem State.withdraw_tick (s : State) (a : Agent) : (s.withdraw a).tick = s.tick := rfl
@[simp] theorem State.withdraw_freeDraws (s : State) (a : Agent) : (s.withdraw a).freeDraws = s.freeDraws := rfl
@[simp] theorem State.withdraw_pending (s : State) (a : Agent) : (s.withdraw a).pending = s.pending := rfl

/-! ### State.clearMarks -/

@[simp] theorem State.clearMarks_store (s : State) (r : Report) : (s.clearMarks r).store = s.store := rfl
@[simp] theorem State.clearMarks_media (s : State) (r : Report) : (s.clearMarks r).media = s.media := rfl
@[simp] theorem State.clearMarks_presented (s : State) (r : Report) : (s.clearMarks r).presented = s.presented := rfl
@[simp] theorem State.clearMarks_nextPhase (s : State) (r : Report) : (s.clearMarks r).nextPhase = s.nextPhase := rfl
@[simp] theorem State.clearMarks_anchor (s : State) (r : Report) : (s.clearMarks r).anchor = s.anchor := rfl
@[simp] theorem State.clearMarks_commandRing (s : State) (r : Report) : (s.clearMarks r).commandRing = s.commandRing := rfl
@[simp] theorem State.clearMarks_reportRing (s : State) (r : Report) : (s.clearMarks r).reportRing = s.reportRing := rfl
@[simp] theorem State.clearMarks_port (s : State) (r : Report) : (s.clearMarks r).port = s.port := rfl
@[simp] theorem State.clearMarks_requests (s : State) (r : Report) : (s.clearMarks r).requests = s.requests := rfl
@[simp] theorem State.clearMarks_waitCount (s : State) (r : Report) : (s.clearMarks r).waitCount = s.waitCount := rfl
@[simp] theorem State.clearMarks_rotation (s : State) (r : Report) : (s.clearMarks r).rotation = s.rotation := rfl
@[simp] theorem State.clearMarks_lanes (s : State) (r : Report) : (s.clearMarks r).lanes = s.lanes := rfl
@[simp] theorem State.clearMarks_slots (s : State) (r : Report) : (s.clearMarks r).slots = s.slots := rfl
@[simp] theorem State.clearMarks_siteKey (s : State) (r : Report) : (s.clearMarks r).siteKey = s.siteKey := rfl
@[simp] theorem State.clearMarks_titles (s : State) (r : Report) : (s.clearMarks r).titles = s.titles := rfl
@[simp] theorem State.clearMarks_refused (s : State) (r : Report) : (s.clearMarks r).refused = s.refused := rfl
@[simp] theorem State.clearMarks_lock (s : State) (r : Report) : (s.clearMarks r).lock = s.lock := rfl
@[simp] theorem State.clearMarks_stay (s : State) (r : Report) : (s.clearMarks r).stay = s.stay := rfl
@[simp] theorem State.clearMarks_tariff (s : State) (r : Report) : (s.clearMarks r).tariff = s.tariff := rfl
@[simp] theorem State.clearMarks_charges (s : State) (r : Report) : (s.clearMarks r).charges = s.charges := rfl
@[simp] theorem State.clearMarks_fetch (s : State) (r : Report) : (s.clearMarks r).fetch = s.fetch := rfl
@[simp] theorem State.clearMarks_reports (s : State) (r : Report) : (s.clearMarks r).reports = s.reports := rfl
@[simp] theorem State.clearMarks_reportWrite (s : State) (r : Report) : (s.clearMarks r).reportWrite = s.reportWrite := rfl
@[simp] theorem State.clearMarks_overflow (s : State) (r : Report) : (s.clearMarks r).overflow = s.overflow := rfl
@[simp] theorem State.clearMarks_causes (s : State) (r : Report) : (s.clearMarks r).causes = if r.isRestarted then Causes.none else s.causes := rfl
@[simp] theorem State.clearMarks_liftMark (s : State) (r : Report) : (s.clearMarks r).liftMark = if r.isLiftRestart then false else s.liftMark := rfl
@[simp] theorem State.clearMarks_attention (s : State) (r : Report) : (s.clearMarks r).attention = s.attention := rfl
@[simp] theorem State.clearMarks_supply (s : State) (r : Report) : (s.clearMarks r).supply = s.supply := rfl
@[simp] theorem State.clearMarks_checkWord (s : State) (r : Report) : (s.clearMarks r).checkWord = s.checkWord := rfl
@[simp] theorem State.clearMarks_resetLine (s : State) (r : Report) : (s.clearMarks r).resetLine = s.resetLine := rfl
@[simp] theorem State.clearMarks_tickCount (s : State) (r : Report) : (s.clearMarks r).tickCount = s.tickCount := rfl
@[simp] theorem State.clearMarks_tick (s : State) (r : Report) : (s.clearMarks r).tick = s.tick := rfl
@[simp] theorem State.clearMarks_freeDraws (s : State) (r : Report) : (s.clearMarks r).freeDraws = s.freeDraws := rfl
@[simp] theorem State.clearMarks_pending (s : State) (r : Report) : (s.clearMarks r).pending = s.pending := rfl

/-! ### State.hand keeps -/

@[simp] theorem State.hand_store (s : State) (b : ReportBody) : (s.hand b).store = s.store := by
  unfold State.hand
  split <;> rfl
@[simp] theorem State.hand_media (s : State) (b : ReportBody) : (s.hand b).media = s.media := by
  unfold State.hand
  split <;> rfl
@[simp] theorem State.hand_presented (s : State) (b : ReportBody) : (s.hand b).presented = s.presented := by
  unfold State.hand
  split <;> rfl
@[simp] theorem State.hand_nextPhase (s : State) (b : ReportBody) : (s.hand b).nextPhase = s.nextPhase := by
  unfold State.hand
  split <;> rfl
@[simp] theorem State.hand_anchor (s : State) (b : ReportBody) : (s.hand b).anchor = s.anchor := by
  unfold State.hand
  split <;> rfl
@[simp] theorem State.hand_commandRing (s : State) (b : ReportBody) : (s.hand b).commandRing = s.commandRing := by
  unfold State.hand
  split <;> rfl
@[simp] theorem State.hand_reportRing (s : State) (b : ReportBody) : (s.hand b).reportRing = s.reportRing := by
  unfold State.hand
  split <;> rfl
@[simp] theorem State.hand_port (s : State) (b : ReportBody) : (s.hand b).port = s.port := by
  unfold State.hand
  split <;> rfl
@[simp] theorem State.hand_requests (s : State) (b : ReportBody) : (s.hand b).requests = s.requests := by
  unfold State.hand
  split <;> rfl
@[simp] theorem State.hand_waitCount (s : State) (b : ReportBody) : (s.hand b).waitCount = s.waitCount := by
  unfold State.hand
  split <;> rfl
@[simp] theorem State.hand_rotation (s : State) (b : ReportBody) : (s.hand b).rotation = s.rotation := by
  unfold State.hand
  split <;> rfl
@[simp] theorem State.hand_lanes (s : State) (b : ReportBody) : (s.hand b).lanes = s.lanes := by
  unfold State.hand
  split <;> rfl
@[simp] theorem State.hand_slots (s : State) (b : ReportBody) : (s.hand b).slots = s.slots := by
  unfold State.hand
  split <;> rfl
@[simp] theorem State.hand_siteKey (s : State) (b : ReportBody) : (s.hand b).siteKey = s.siteKey := by
  unfold State.hand
  split <;> rfl
@[simp] theorem State.hand_titles (s : State) (b : ReportBody) : (s.hand b).titles = s.titles := by
  unfold State.hand
  split <;> rfl
@[simp] theorem State.hand_refused (s : State) (b : ReportBody) : (s.hand b).refused = s.refused := by
  unfold State.hand
  split <;> rfl
@[simp] theorem State.hand_lock (s : State) (b : ReportBody) : (s.hand b).lock = s.lock := by
  unfold State.hand
  split <;> rfl
@[simp] theorem State.hand_stay (s : State) (b : ReportBody) : (s.hand b).stay = s.stay := by
  unfold State.hand
  split <;> rfl
@[simp] theorem State.hand_tariff (s : State) (b : ReportBody) : (s.hand b).tariff = s.tariff := by
  unfold State.hand
  split <;> rfl
@[simp] theorem State.hand_charges (s : State) (b : ReportBody) : (s.hand b).charges = s.charges := by
  unfold State.hand
  split <;> rfl
@[simp] theorem State.hand_fetch (s : State) (b : ReportBody) : (s.hand b).fetch = s.fetch := by
  unfold State.hand
  split <;> rfl
@[simp] theorem State.hand_reportWrite (s : State) (b : ReportBody) : (s.hand b).reportWrite = s.reportWrite := by
  unfold State.hand
  split <;> rfl
@[simp] theorem State.hand_causes (s : State) (b : ReportBody) : (s.hand b).causes = s.causes := by
  unfold State.hand
  split <;> rfl
@[simp] theorem State.hand_liftMark (s : State) (b : ReportBody) : (s.hand b).liftMark = s.liftMark := by
  unfold State.hand
  split <;> rfl
@[simp] theorem State.hand_attention (s : State) (b : ReportBody) : (s.hand b).attention = s.attention := by
  unfold State.hand
  split <;> rfl
@[simp] theorem State.hand_supply (s : State) (b : ReportBody) : (s.hand b).supply = s.supply := by
  unfold State.hand
  split <;> rfl
@[simp] theorem State.hand_checkWord (s : State) (b : ReportBody) : (s.hand b).checkWord = s.checkWord := by
  unfold State.hand
  split <;> rfl
@[simp] theorem State.hand_resetLine (s : State) (b : ReportBody) : (s.hand b).resetLine = s.resetLine := by
  unfold State.hand
  split <;> rfl
@[simp] theorem State.hand_tickCount (s : State) (b : ReportBody) : (s.hand b).tickCount = s.tickCount := by
  unfold State.hand
  split <;> rfl
@[simp] theorem State.hand_tick (s : State) (b : ReportBody) : (s.hand b).tick = s.tick := by
  unfold State.hand
  split <;> rfl
@[simp] theorem State.hand_freeDraws (s : State) (b : ReportBody) : (s.hand b).freeDraws = s.freeDraws := by
  unfold State.hand
  split <;> rfl
@[simp] theorem State.hand_pending (s : State) (b : ReportBody) : (s.hand b).pending = s.pending := by
  unfold State.hand
  split <;> rfl

/-! ### State.raiseEvent keeps -/

@[simp] theorem State.raiseEvent_store (s : State) (e : Event) : (s.raiseEvent e).store = s.store := State.hand_store s _
@[simp] theorem State.raiseEvent_media (s : State) (e : Event) : (s.raiseEvent e).media = s.media := State.hand_media s _
@[simp] theorem State.raiseEvent_presented (s : State) (e : Event) : (s.raiseEvent e).presented = s.presented := State.hand_presented s _
@[simp] theorem State.raiseEvent_nextPhase (s : State) (e : Event) : (s.raiseEvent e).nextPhase = s.nextPhase := State.hand_nextPhase s _
@[simp] theorem State.raiseEvent_anchor (s : State) (e : Event) : (s.raiseEvent e).anchor = s.anchor := State.hand_anchor s _
@[simp] theorem State.raiseEvent_commandRing (s : State) (e : Event) : (s.raiseEvent e).commandRing = s.commandRing := State.hand_commandRing s _
@[simp] theorem State.raiseEvent_reportRing (s : State) (e : Event) : (s.raiseEvent e).reportRing = s.reportRing := State.hand_reportRing s _
@[simp] theorem State.raiseEvent_port (s : State) (e : Event) : (s.raiseEvent e).port = s.port := State.hand_port s _
@[simp] theorem State.raiseEvent_requests (s : State) (e : Event) : (s.raiseEvent e).requests = s.requests := State.hand_requests s _
@[simp] theorem State.raiseEvent_waitCount (s : State) (e : Event) : (s.raiseEvent e).waitCount = s.waitCount := State.hand_waitCount s _
@[simp] theorem State.raiseEvent_rotation (s : State) (e : Event) : (s.raiseEvent e).rotation = s.rotation := State.hand_rotation s _
@[simp] theorem State.raiseEvent_lanes (s : State) (e : Event) : (s.raiseEvent e).lanes = s.lanes := State.hand_lanes s _
@[simp] theorem State.raiseEvent_slots (s : State) (e : Event) : (s.raiseEvent e).slots = s.slots := State.hand_slots s _
@[simp] theorem State.raiseEvent_siteKey (s : State) (e : Event) : (s.raiseEvent e).siteKey = s.siteKey := State.hand_siteKey s _
@[simp] theorem State.raiseEvent_titles (s : State) (e : Event) : (s.raiseEvent e).titles = s.titles := State.hand_titles s _
@[simp] theorem State.raiseEvent_refused (s : State) (e : Event) : (s.raiseEvent e).refused = s.refused := State.hand_refused s _
@[simp] theorem State.raiseEvent_lock (s : State) (e : Event) : (s.raiseEvent e).lock = s.lock := State.hand_lock s _
@[simp] theorem State.raiseEvent_stay (s : State) (e : Event) : (s.raiseEvent e).stay = s.stay := State.hand_stay s _
@[simp] theorem State.raiseEvent_tariff (s : State) (e : Event) : (s.raiseEvent e).tariff = s.tariff := State.hand_tariff s _
@[simp] theorem State.raiseEvent_charges (s : State) (e : Event) : (s.raiseEvent e).charges = s.charges := State.hand_charges s _
@[simp] theorem State.raiseEvent_fetch (s : State) (e : Event) : (s.raiseEvent e).fetch = s.fetch := State.hand_fetch s _
@[simp] theorem State.raiseEvent_reportWrite (s : State) (e : Event) : (s.raiseEvent e).reportWrite = s.reportWrite := State.hand_reportWrite s _
@[simp] theorem State.raiseEvent_causes (s : State) (e : Event) : (s.raiseEvent e).causes = s.causes := State.hand_causes s _
@[simp] theorem State.raiseEvent_liftMark (s : State) (e : Event) : (s.raiseEvent e).liftMark = s.liftMark := State.hand_liftMark s _
@[simp] theorem State.raiseEvent_attention (s : State) (e : Event) : (s.raiseEvent e).attention = s.attention := State.hand_attention s _
@[simp] theorem State.raiseEvent_supply (s : State) (e : Event) : (s.raiseEvent e).supply = s.supply := State.hand_supply s _
@[simp] theorem State.raiseEvent_checkWord (s : State) (e : Event) : (s.raiseEvent e).checkWord = s.checkWord := State.hand_checkWord s _
@[simp] theorem State.raiseEvent_resetLine (s : State) (e : Event) : (s.raiseEvent e).resetLine = s.resetLine := State.hand_resetLine s _
@[simp] theorem State.raiseEvent_tickCount (s : State) (e : Event) : (s.raiseEvent e).tickCount = s.tickCount := State.hand_tickCount s _
@[simp] theorem State.raiseEvent_tick (s : State) (e : Event) : (s.raiseEvent e).tick = s.tick := State.hand_tick s _
@[simp] theorem State.raiseEvent_freeDraws (s : State) (e : Event) : (s.raiseEvent e).freeDraws = s.freeDraws := State.hand_freeDraws s _
@[simp] theorem State.raiseEvent_pending (s : State) (e : Event) : (s.raiseEvent e).pending = s.pending := State.hand_pending s _

/-! ### State.placeFirst keeps -/

@[simp] theorem State.placeFirst_store (s : State) (r : Report) : (s.placeFirst r).store = s.store := by
  unfold State.placeFirst
  split <;> rfl
@[simp] theorem State.placeFirst_media (s : State) (r : Report) : (s.placeFirst r).media = s.media := by
  unfold State.placeFirst
  split <;> rfl
@[simp] theorem State.placeFirst_presented (s : State) (r : Report) : (s.placeFirst r).presented = s.presented := by
  unfold State.placeFirst
  split <;> rfl
@[simp] theorem State.placeFirst_nextPhase (s : State) (r : Report) : (s.placeFirst r).nextPhase = s.nextPhase := by
  unfold State.placeFirst
  split <;> rfl
@[simp] theorem State.placeFirst_anchor (s : State) (r : Report) : (s.placeFirst r).anchor = s.anchor := by
  unfold State.placeFirst
  split <;> rfl
@[simp] theorem State.placeFirst_commandRing (s : State) (r : Report) : (s.placeFirst r).commandRing = s.commandRing := by
  unfold State.placeFirst
  split <;> rfl
@[simp] theorem State.placeFirst_reportRing (s : State) (r : Report) : (s.placeFirst r).reportRing = s.reportRing := by
  unfold State.placeFirst
  split <;> rfl
@[simp] theorem State.placeFirst_port (s : State) (r : Report) : (s.placeFirst r).port = s.port := by
  unfold State.placeFirst
  split <;> rfl
@[simp] theorem State.placeFirst_requests (s : State) (r : Report) : (s.placeFirst r).requests = s.requests := by
  unfold State.placeFirst
  split <;> rfl
@[simp] theorem State.placeFirst_waitCount (s : State) (r : Report) : (s.placeFirst r).waitCount = s.waitCount := by
  unfold State.placeFirst
  split <;> rfl
@[simp] theorem State.placeFirst_rotation (s : State) (r : Report) : (s.placeFirst r).rotation = s.rotation := by
  unfold State.placeFirst
  split <;> rfl
@[simp] theorem State.placeFirst_lanes (s : State) (r : Report) : (s.placeFirst r).lanes = s.lanes := by
  unfold State.placeFirst
  split <;> rfl
@[simp] theorem State.placeFirst_slots (s : State) (r : Report) : (s.placeFirst r).slots = s.slots := by
  unfold State.placeFirst
  split <;> rfl
@[simp] theorem State.placeFirst_siteKey (s : State) (r : Report) : (s.placeFirst r).siteKey = s.siteKey := by
  unfold State.placeFirst
  split <;> rfl
@[simp] theorem State.placeFirst_titles (s : State) (r : Report) : (s.placeFirst r).titles = s.titles := by
  unfold State.placeFirst
  split <;> rfl
@[simp] theorem State.placeFirst_refused (s : State) (r : Report) : (s.placeFirst r).refused = s.refused := by
  unfold State.placeFirst
  split <;> rfl
@[simp] theorem State.placeFirst_lock (s : State) (r : Report) : (s.placeFirst r).lock = s.lock := by
  unfold State.placeFirst
  split <;> rfl
@[simp] theorem State.placeFirst_stay (s : State) (r : Report) : (s.placeFirst r).stay = s.stay := by
  unfold State.placeFirst
  split <;> rfl
@[simp] theorem State.placeFirst_tariff (s : State) (r : Report) : (s.placeFirst r).tariff = s.tariff := by
  unfold State.placeFirst
  split <;> rfl
@[simp] theorem State.placeFirst_charges (s : State) (r : Report) : (s.placeFirst r).charges = s.charges := by
  unfold State.placeFirst
  split <;> rfl
@[simp] theorem State.placeFirst_fetch (s : State) (r : Report) : (s.placeFirst r).fetch = s.fetch := by
  unfold State.placeFirst
  split <;> rfl
@[simp] theorem State.placeFirst_reportWrite (s : State) (r : Report) : (s.placeFirst r).reportWrite = s.reportWrite := by
  unfold State.placeFirst
  split <;> rfl
@[simp] theorem State.placeFirst_causes (s : State) (r : Report) : (s.placeFirst r).causes = s.causes := by
  unfold State.placeFirst
  split <;> rfl
@[simp] theorem State.placeFirst_liftMark (s : State) (r : Report) : (s.placeFirst r).liftMark = s.liftMark := by
  unfold State.placeFirst
  split <;> rfl
@[simp] theorem State.placeFirst_attention (s : State) (r : Report) : (s.placeFirst r).attention = s.attention := by
  unfold State.placeFirst
  split <;> rfl
@[simp] theorem State.placeFirst_supply (s : State) (r : Report) : (s.placeFirst r).supply = s.supply := by
  unfold State.placeFirst
  split <;> rfl
@[simp] theorem State.placeFirst_checkWord (s : State) (r : Report) : (s.placeFirst r).checkWord = s.checkWord := by
  unfold State.placeFirst
  split <;> rfl
@[simp] theorem State.placeFirst_resetLine (s : State) (r : Report) : (s.placeFirst r).resetLine = s.resetLine := by
  unfold State.placeFirst
  split <;> rfl
@[simp] theorem State.placeFirst_tickCount (s : State) (r : Report) : (s.placeFirst r).tickCount = s.tickCount := by
  unfold State.placeFirst
  split <;> rfl
@[simp] theorem State.placeFirst_tick (s : State) (r : Report) : (s.placeFirst r).tick = s.tick := by
  unfold State.placeFirst
  split <;> rfl
@[simp] theorem State.placeFirst_freeDraws (s : State) (r : Report) : (s.placeFirst r).freeDraws = s.freeDraws := by
  unfold State.placeFirst
  split <;> rfl
@[simp] theorem State.placeFirst_pending (s : State) (r : Report) : (s.placeFirst r).pending = s.pending := by
  unfold State.placeFirst
  split <;> rfl

/-! ### State.request keeps -/

@[simp] theorem State.request_store (s : State) (a : Agent) : (s.request a).store = s.store := by
  unfold State.request
  split <;> rfl
@[simp] theorem State.request_media (s : State) (a : Agent) : (s.request a).media = s.media := by
  unfold State.request
  split <;> rfl
@[simp] theorem State.request_presented (s : State) (a : Agent) : (s.request a).presented = s.presented := by
  unfold State.request
  split <;> rfl
@[simp] theorem State.request_nextPhase (s : State) (a : Agent) : (s.request a).nextPhase = s.nextPhase := by
  unfold State.request
  split <;> rfl
@[simp] theorem State.request_anchor (s : State) (a : Agent) : (s.request a).anchor = s.anchor := by
  unfold State.request
  split <;> rfl
@[simp] theorem State.request_commandRing (s : State) (a : Agent) : (s.request a).commandRing = s.commandRing := by
  unfold State.request
  split <;> rfl
@[simp] theorem State.request_reportRing (s : State) (a : Agent) : (s.request a).reportRing = s.reportRing := by
  unfold State.request
  split <;> rfl
@[simp] theorem State.request_waitCount (s : State) (a : Agent) : (s.request a).waitCount = s.waitCount := by
  unfold State.request
  split <;> rfl
@[simp] theorem State.request_lanes (s : State) (a : Agent) : (s.request a).lanes = s.lanes := by
  unfold State.request
  split <;> rfl
@[simp] theorem State.request_slots (s : State) (a : Agent) : (s.request a).slots = s.slots := by
  unfold State.request
  split <;> rfl
@[simp] theorem State.request_siteKey (s : State) (a : Agent) : (s.request a).siteKey = s.siteKey := by
  unfold State.request
  split <;> rfl
@[simp] theorem State.request_titles (s : State) (a : Agent) : (s.request a).titles = s.titles := by
  unfold State.request
  split <;> rfl
@[simp] theorem State.request_refused (s : State) (a : Agent) : (s.request a).refused = s.refused := by
  unfold State.request
  split <;> rfl
@[simp] theorem State.request_lock (s : State) (a : Agent) : (s.request a).lock = s.lock := by
  unfold State.request
  split <;> rfl
@[simp] theorem State.request_stay (s : State) (a : Agent) : (s.request a).stay = s.stay := by
  unfold State.request
  split <;> rfl
@[simp] theorem State.request_tariff (s : State) (a : Agent) : (s.request a).tariff = s.tariff := by
  unfold State.request
  split <;> rfl
@[simp] theorem State.request_charges (s : State) (a : Agent) : (s.request a).charges = s.charges := by
  unfold State.request
  split <;> rfl
@[simp] theorem State.request_fetch (s : State) (a : Agent) : (s.request a).fetch = s.fetch := by
  unfold State.request
  split <;> rfl
@[simp] theorem State.request_reports (s : State) (a : Agent) : (s.request a).reports = s.reports := by
  unfold State.request
  split <;> rfl
@[simp] theorem State.request_reportWrite (s : State) (a : Agent) : (s.request a).reportWrite = s.reportWrite := by
  unfold State.request
  split <;> rfl
@[simp] theorem State.request_overflow (s : State) (a : Agent) : (s.request a).overflow = s.overflow := by
  unfold State.request
  split <;> rfl
@[simp] theorem State.request_causes (s : State) (a : Agent) : (s.request a).causes = s.causes := by
  unfold State.request
  split <;> rfl
@[simp] theorem State.request_liftMark (s : State) (a : Agent) : (s.request a).liftMark = s.liftMark := by
  unfold State.request
  split <;> rfl
@[simp] theorem State.request_attention (s : State) (a : Agent) : (s.request a).attention = s.attention := by
  unfold State.request
  split <;> rfl
@[simp] theorem State.request_supply (s : State) (a : Agent) : (s.request a).supply = s.supply := by
  unfold State.request
  split <;> rfl
@[simp] theorem State.request_checkWord (s : State) (a : Agent) : (s.request a).checkWord = s.checkWord := by
  unfold State.request
  split <;> rfl
@[simp] theorem State.request_resetLine (s : State) (a : Agent) : (s.request a).resetLine = s.resetLine := by
  unfold State.request
  split <;> rfl
@[simp] theorem State.request_tickCount (s : State) (a : Agent) : (s.request a).tickCount = s.tickCount := by
  unfold State.request
  split <;> rfl
@[simp] theorem State.request_tick (s : State) (a : Agent) : (s.request a).tick = s.tick := by
  unfold State.request
  split <;> rfl
@[simp] theorem State.request_freeDraws (s : State) (a : Agent) : (s.request a).freeDraws = s.freeDraws := by
  unfold State.request
  split <;> rfl
@[simp] theorem State.request_pending (s : State) (a : Agent) : (s.request a).pending = s.pending := by
  unfold State.request
  split <;> rfl

/-! ### State.requestMedia keeps -/

@[simp] theorem State.requestMedia_store (s : State) : s.requestMedia.store = s.store := by
  unfold State.requestMedia
  split <;> rfl
@[simp] theorem State.requestMedia_presented (s : State) : s.requestMedia.presented = s.presented := by
  unfold State.requestMedia
  split <;> rfl
@[simp] theorem State.requestMedia_nextPhase (s : State) : s.requestMedia.nextPhase = s.nextPhase := by
  unfold State.requestMedia
  split <;> rfl
@[simp] theorem State.requestMedia_anchor (s : State) : s.requestMedia.anchor = s.anchor := by
  unfold State.requestMedia
  split <;> rfl
@[simp] theorem State.requestMedia_commandRing (s : State) : s.requestMedia.commandRing = s.commandRing := by
  unfold State.requestMedia
  split <;> rfl
@[simp] theorem State.requestMedia_reportRing (s : State) : s.requestMedia.reportRing = s.reportRing := by
  unfold State.requestMedia
  split <;> rfl
@[simp] theorem State.requestMedia_requests (s : State) : s.requestMedia.requests = s.requests := by
  unfold State.requestMedia
  split <;> rfl
@[simp] theorem State.requestMedia_waitCount (s : State) : s.requestMedia.waitCount = s.waitCount := by
  unfold State.requestMedia
  split <;> rfl
@[simp] theorem State.requestMedia_rotation (s : State) : s.requestMedia.rotation = s.rotation := by
  unfold State.requestMedia
  split <;> rfl
@[simp] theorem State.requestMedia_lanes (s : State) : s.requestMedia.lanes = s.lanes := by
  unfold State.requestMedia
  split <;> rfl
@[simp] theorem State.requestMedia_slots (s : State) : s.requestMedia.slots = s.slots := by
  unfold State.requestMedia
  split <;> rfl
@[simp] theorem State.requestMedia_siteKey (s : State) : s.requestMedia.siteKey = s.siteKey := by
  unfold State.requestMedia
  split <;> rfl
@[simp] theorem State.requestMedia_titles (s : State) : s.requestMedia.titles = s.titles := by
  unfold State.requestMedia
  split <;> rfl
@[simp] theorem State.requestMedia_refused (s : State) : s.requestMedia.refused = s.refused := by
  unfold State.requestMedia
  split <;> rfl
@[simp] theorem State.requestMedia_lock (s : State) : s.requestMedia.lock = s.lock := by
  unfold State.requestMedia
  split <;> rfl
@[simp] theorem State.requestMedia_stay (s : State) : s.requestMedia.stay = s.stay := by
  unfold State.requestMedia
  split <;> rfl
@[simp] theorem State.requestMedia_tariff (s : State) : s.requestMedia.tariff = s.tariff := by
  unfold State.requestMedia
  split <;> rfl
@[simp] theorem State.requestMedia_charges (s : State) : s.requestMedia.charges = s.charges := by
  unfold State.requestMedia
  split <;> rfl
@[simp] theorem State.requestMedia_fetch (s : State) : s.requestMedia.fetch = s.fetch := by
  unfold State.requestMedia
  split <;> rfl
@[simp] theorem State.requestMedia_reports (s : State) : s.requestMedia.reports = s.reports := by
  unfold State.requestMedia
  split <;> rfl
@[simp] theorem State.requestMedia_reportWrite (s : State) : s.requestMedia.reportWrite = s.reportWrite := by
  unfold State.requestMedia
  split <;> rfl
@[simp] theorem State.requestMedia_overflow (s : State) : s.requestMedia.overflow = s.overflow := by
  unfold State.requestMedia
  split <;> rfl
@[simp] theorem State.requestMedia_causes (s : State) : s.requestMedia.causes = s.causes := by
  unfold State.requestMedia
  split <;> rfl
@[simp] theorem State.requestMedia_liftMark (s : State) : s.requestMedia.liftMark = s.liftMark := by
  unfold State.requestMedia
  split <;> rfl
@[simp] theorem State.requestMedia_attention (s : State) : s.requestMedia.attention = s.attention := by
  unfold State.requestMedia
  split <;> rfl
@[simp] theorem State.requestMedia_supply (s : State) : s.requestMedia.supply = s.supply := by
  unfold State.requestMedia
  split <;> rfl
@[simp] theorem State.requestMedia_checkWord (s : State) : s.requestMedia.checkWord = s.checkWord := by
  unfold State.requestMedia
  split <;> rfl
@[simp] theorem State.requestMedia_resetLine (s : State) : s.requestMedia.resetLine = s.resetLine := by
  unfold State.requestMedia
  split <;> rfl
@[simp] theorem State.requestMedia_tickCount (s : State) : s.requestMedia.tickCount = s.tickCount := by
  unfold State.requestMedia
  split <;> rfl
@[simp] theorem State.requestMedia_tick (s : State) : s.requestMedia.tick = s.tick := by
  unfold State.requestMedia
  split <;> rfl
@[simp] theorem State.requestMedia_freeDraws (s : State) : s.requestMedia.freeDraws = s.freeDraws := by
  unfold State.requestMedia
  split <;> rfl
@[simp] theorem State.requestMedia_pending (s : State) : s.requestMedia.pending = s.pending := by
  unfold State.requestMedia
  split <;> rfl

/-! ### State.handOver keeps -/

@[simp] theorem State.handOver_store (s : State) : s.handOver.store = s.store := by
  unfold State.handOver
  repeat' (first | rfl | split)
@[simp] theorem State.handOver_presented (s : State) : s.handOver.presented = s.presented := by
  unfold State.handOver
  repeat' (first | rfl | split)
@[simp] theorem State.handOver_nextPhase (s : State) : s.handOver.nextPhase = s.nextPhase := by
  unfold State.handOver
  repeat' (first | rfl | split)
@[simp] theorem State.handOver_anchor (s : State) : s.handOver.anchor = s.anchor := by
  unfold State.handOver
  repeat' (first | rfl | split)
@[simp] theorem State.handOver_commandRing (s : State) : s.handOver.commandRing = s.commandRing := by
  unfold State.handOver
  repeat' (first | rfl | split)
@[simp] theorem State.handOver_reportRing (s : State) : s.handOver.reportRing = s.reportRing := by
  unfold State.handOver
  repeat' (first | rfl | split)
@[simp] theorem State.handOver_lanes (s : State) : s.handOver.lanes = s.lanes := by
  unfold State.handOver
  repeat' (first | rfl | split)
@[simp] theorem State.handOver_slots (s : State) : s.handOver.slots = s.slots := by
  unfold State.handOver
  repeat' (first | rfl | split)
@[simp] theorem State.handOver_siteKey (s : State) : s.handOver.siteKey = s.siteKey := by
  unfold State.handOver
  repeat' (first | rfl | split)
@[simp] theorem State.handOver_titles (s : State) : s.handOver.titles = s.titles := by
  unfold State.handOver
  repeat' (first | rfl | split)
@[simp] theorem State.handOver_refused (s : State) : s.handOver.refused = s.refused := by
  unfold State.handOver
  repeat' (first | rfl | split)
@[simp] theorem State.handOver_lock (s : State) : s.handOver.lock = s.lock := by
  unfold State.handOver
  repeat' (first | rfl | split)
@[simp] theorem State.handOver_stay (s : State) : s.handOver.stay = s.stay := by
  unfold State.handOver
  repeat' (first | rfl | split)
@[simp] theorem State.handOver_tariff (s : State) : s.handOver.tariff = s.tariff := by
  unfold State.handOver
  repeat' (first | rfl | split)
@[simp] theorem State.handOver_charges (s : State) : s.handOver.charges = s.charges := by
  unfold State.handOver
  repeat' (first | rfl | split)
@[simp] theorem State.handOver_fetch (s : State) : s.handOver.fetch = s.fetch := by
  unfold State.handOver
  repeat' (first | rfl | split)
@[simp] theorem State.handOver_reports (s : State) : s.handOver.reports = s.reports := by
  unfold State.handOver
  repeat' (first | rfl | split)
@[simp] theorem State.handOver_reportWrite (s : State) : s.handOver.reportWrite = s.reportWrite := by
  unfold State.handOver
  repeat' (first | rfl | split)
@[simp] theorem State.handOver_overflow (s : State) : s.handOver.overflow = s.overflow := by
  unfold State.handOver
  repeat' (first | rfl | split)
@[simp] theorem State.handOver_causes (s : State) : s.handOver.causes = s.causes := by
  unfold State.handOver
  repeat' (first | rfl | split)
@[simp] theorem State.handOver_liftMark (s : State) : s.handOver.liftMark = s.liftMark := by
  unfold State.handOver
  repeat' (first | rfl | split)
@[simp] theorem State.handOver_attention (s : State) : s.handOver.attention = s.attention := by
  unfold State.handOver
  repeat' (first | rfl | split)
@[simp] theorem State.handOver_supply (s : State) : s.handOver.supply = s.supply := by
  unfold State.handOver
  repeat' (first | rfl | split)
@[simp] theorem State.handOver_checkWord (s : State) : s.handOver.checkWord = s.checkWord := by
  unfold State.handOver
  repeat' (first | rfl | split)
@[simp] theorem State.handOver_resetLine (s : State) : s.handOver.resetLine = s.resetLine := by
  unfold State.handOver
  repeat' (first | rfl | split)
@[simp] theorem State.handOver_tickCount (s : State) : s.handOver.tickCount = s.tickCount := by
  unfold State.handOver
  repeat' (first | rfl | split)
@[simp] theorem State.handOver_tick (s : State) : s.handOver.tick = s.tick := by
  unfold State.handOver
  repeat' (first | rfl | split)
@[simp] theorem State.handOver_freeDraws (s : State) : s.handOver.freeDraws = s.freeDraws := by
  unfold State.handOver
  repeat' (first | rfl | split)
@[simp] theorem State.handOver_pending (s : State) : s.handOver.pending = s.pending := by
  unfold State.handOver
  repeat' (first | rfl | split)

/-! ### State.finishFetch keeps -/

@[simp] theorem State.finishFetch_store (s : State) (tag : Word) (code : Byte) (x : Answer) : (s.finishFetch tag code x).store = s.store := by
  simp [State.finishFetch]
@[simp] theorem State.finishFetch_presented (s : State) (tag : Word) (code : Byte) (x : Answer) : (s.finishFetch tag code x).presented = s.presented := by
  simp [State.finishFetch]
@[simp] theorem State.finishFetch_nextPhase (s : State) (tag : Word) (code : Byte) (x : Answer) : (s.finishFetch tag code x).nextPhase = s.nextPhase := by
  simp [State.finishFetch]
@[simp] theorem State.finishFetch_anchor (s : State) (tag : Word) (code : Byte) (x : Answer) : (s.finishFetch tag code x).anchor = s.anchor := by
  simp [State.finishFetch]
@[simp] theorem State.finishFetch_reportRing (s : State) (tag : Word) (code : Byte) (x : Answer) : (s.finishFetch tag code x).reportRing = s.reportRing := by
  simp [State.finishFetch]
@[simp] theorem State.finishFetch_lanes (s : State) (tag : Word) (code : Byte) (x : Answer) : (s.finishFetch tag code x).lanes = s.lanes := by
  simp [State.finishFetch]
@[simp] theorem State.finishFetch_slots (s : State) (tag : Word) (code : Byte) (x : Answer) : (s.finishFetch tag code x).slots = s.slots := by
  simp [State.finishFetch]
@[simp] theorem State.finishFetch_siteKey (s : State) (tag : Word) (code : Byte) (x : Answer) : (s.finishFetch tag code x).siteKey = s.siteKey := by
  simp [State.finishFetch]
@[simp] theorem State.finishFetch_titles (s : State) (tag : Word) (code : Byte) (x : Answer) : (s.finishFetch tag code x).titles = s.titles := by
  simp [State.finishFetch]
@[simp] theorem State.finishFetch_refused (s : State) (tag : Word) (code : Byte) (x : Answer) : (s.finishFetch tag code x).refused = s.refused := by
  simp [State.finishFetch]
@[simp] theorem State.finishFetch_lock (s : State) (tag : Word) (code : Byte) (x : Answer) : (s.finishFetch tag code x).lock = s.lock := by
  simp [State.finishFetch]
@[simp] theorem State.finishFetch_stay (s : State) (tag : Word) (code : Byte) (x : Answer) : (s.finishFetch tag code x).stay = s.stay := by
  simp [State.finishFetch]
@[simp] theorem State.finishFetch_tariff (s : State) (tag : Word) (code : Byte) (x : Answer) : (s.finishFetch tag code x).tariff = s.tariff := by
  simp [State.finishFetch]
@[simp] theorem State.finishFetch_charges (s : State) (tag : Word) (code : Byte) (x : Answer) : (s.finishFetch tag code x).charges = s.charges := by
  simp [State.finishFetch]
@[simp] theorem State.finishFetch_reportWrite (s : State) (tag : Word) (code : Byte) (x : Answer) : (s.finishFetch tag code x).reportWrite = s.reportWrite := by
  simp [State.finishFetch]
@[simp] theorem State.finishFetch_causes (s : State) (tag : Word) (code : Byte) (x : Answer) : (s.finishFetch tag code x).causes = s.causes := by
  simp [State.finishFetch]
@[simp] theorem State.finishFetch_liftMark (s : State) (tag : Word) (code : Byte) (x : Answer) : (s.finishFetch tag code x).liftMark = s.liftMark := by
  simp [State.finishFetch]
@[simp] theorem State.finishFetch_attention (s : State) (tag : Word) (code : Byte) (x : Answer) : (s.finishFetch tag code x).attention = s.attention := by
  simp [State.finishFetch]
@[simp] theorem State.finishFetch_supply (s : State) (tag : Word) (code : Byte) (x : Answer) : (s.finishFetch tag code x).supply = s.supply := by
  simp [State.finishFetch]
@[simp] theorem State.finishFetch_checkWord (s : State) (tag : Word) (code : Byte) (x : Answer) : (s.finishFetch tag code x).checkWord = s.checkWord := by
  simp [State.finishFetch]
@[simp] theorem State.finishFetch_resetLine (s : State) (tag : Word) (code : Byte) (x : Answer) : (s.finishFetch tag code x).resetLine = s.resetLine := by
  simp [State.finishFetch]
@[simp] theorem State.finishFetch_tickCount (s : State) (tag : Word) (code : Byte) (x : Answer) : (s.finishFetch tag code x).tickCount = s.tickCount := by
  simp [State.finishFetch]
@[simp] theorem State.finishFetch_tick (s : State) (tag : Word) (code : Byte) (x : Answer) : (s.finishFetch tag code x).tick = s.tick := by
  simp [State.finishFetch]
@[simp] theorem State.finishFetch_freeDraws (s : State) (tag : Word) (code : Byte) (x : Answer) : (s.finishFetch tag code x).freeDraws = s.freeDraws := by
  simp [State.finishFetch]
@[simp] theorem State.finishFetch_pending (s : State) (tag : Word) (code : Byte) (x : Answer) : (s.finishFetch tag code x).pending = s.pending := by
  simp [State.finishFetch]

end Sys2Proof.Machine
end

