-- ==== Sys2Proof/Laws/Ops.lean ====
section
/-! SUPPORT. What the shared operations can do, said once for each: lanes by number, the pending queue, the arbiter's decision,
the completion of a tick, taking an event, and what a decay leaves in the retained store. -/

namespace Sys2Proof.Machine

/-! ## Lanes and slots by number -/

/-- The value of a number just replaced is the new one. -/
@[simp] theorem Four.get_set_same {α : Type} (f : Four α) (i : Fin 4) (a : α) : (f.set i a).get i = a := by
  match i with
  | 0 => rfl
  | 1 => rfl
  | 2 => rfl
  | 3 => rfl

/-- The value of another number stays. -/
theorem Four.get_set_other {α : Type} (f : Four α) (i j : Fin 4) (a : α) (h : j ≠ i) : (f.set i a).get j = f.get j := by
  match i, j with
  | 0, 0 => exact absurd rfl h
  | 1, 1 => exact absurd rfl h
  | 2, 2 => exact absurd rfl h
  | 3, 3 => exact absurd rfl h
  | 0, 1 => rfl
  | 0, 2 => rfl
  | 0, 3 => rfl
  | 1, 0 => rfl
  | 1, 2 => rfl
  | 1, 3 => rfl
  | 2, 0 => rfl
  | 2, 1 => rfl
  | 2, 3 => rfl
  | 3, 0 => rfl
  | 3, 1 => rfl
  | 3, 2 => rfl

/-- Every number of a value repeated four times has it. -/
@[simp] theorem Four.get_all {α : Type} (a : α) (i : Fin 4) : (Four.all a).get i = a := by
  match i with
  | 0 => rfl
  | 1 => rfl
  | 2 => rfl
  | 3 => rfl

/-! ## The pending queue (R145) -/

/-- A handed report joins the tail of the queue, or, with 16 there, is dropped and sets the overflow mark. -/
theorem State.hand_cases (s : State) (b : ReportBody) :
    (s.reports.length < 16 ∧ s.hand b = { s with reports := s.reports ++ [⟨b, false⟩] }) ∨
      (16 ≤ s.reports.length ∧ s.hand b = { s with overflow := true }) := by
  by_cases h : s.reports.length < 16
  · exact .inl ⟨h, by simp [State.hand, h]⟩
  · exact .inr ⟨by omega, by simp [State.hand, h]⟩

/-- A report placed at the head of the queue stands there; with 16 there, the one at the tail makes room (R145). -/
theorem State.placeFirst_cases (s : State) (r : Report) :
    (s.reports.length < 16 ∧ s.placeFirst r = { s with reports := r :: s.reports }) ∨
      (16 ≤ s.reports.length ∧ s.placeFirst r = { s with reports := r :: s.reports.dropLast, overflow := true }) := by
  by_cases h : s.reports.length < 16
  · exact .inl ⟨h, by simp [State.placeFirst, h]⟩
  · exact .inr ⟨by omega, by simp [State.placeFirst, h]⟩

/-! ## The arbiter (R13) -/

/-- A house request is granted at once at a free port of a working part, and waits otherwise. -/
theorem State.request_cases (s : State) (a : Agent) :
    (s.port = .free ∧ s.working = true ∧ s.request a = s.grantHouse a) ∨
      (¬ (s.port = .free ∧ s.working = true) ∧ s.request a = { s with requests := s.requests.put a true }) := by
  by_cases h : s.port = .free ∧ s.working = true
  · exact .inl ⟨h.1, h.2, by simp [State.request, h]⟩
  · exact .inr ⟨h, by simp only [State.request, h, if_false]⟩

/-- The waiting media transaction is granted at once at a free port of a working part, and waits otherwise. -/
theorem State.requestMedia_cases (s : State) :
    (s.port = .free ∧ s.working = true ∧ s.requestMedia = s.grantMedia) ∨
      (¬ (s.port = .free ∧ s.working = true) ∧ s.requestMedia = s) := by
  by_cases h : s.port = .free ∧ s.working = true
  · exact .inl ⟨h.1, h.2, by simp [State.requestMedia, h]⟩
  · exact .inr ⟨h, by simp only [State.requestMedia, h, if_false]⟩

/-- An agent's request is waiting after it is put, and no other agent's changes. -/
theorem Requests.has_put (r : Requests) (a b : Agent) (v : Bool) : (r.put a v).has b = if b = a then v else r.has b := by
  cases a <;> cases b <;> simp [Requests.put, Requests.has]

/-- Some agent waits exactly when the requests are not all clear. -/
theorem Requests.any_iff (r : Requests) : r.any = true ↔ ∃ a, r.has a = true := by
  constructor
  · intro h
    simp only [Requests.any, Bool.or_eq_true] at h
    rcases h with (h | h) | h
    · exact ⟨.command, h⟩
    · exact ⟨.report, h⟩
    · exact ⟨.log, h⟩
  · rintro ⟨a, h⟩
    cases a <;> simp_all [Requests.any, Requests.has]

/-- The five outcomes of a freed store port (R13), the first of them while the part does not work. -/
theorem State.handOver_cases (s : State) :
    (s.working = false ∧ s.handOver = { s with port := .free }) ∨
    (s.working = true ∧ s.mediaWaits = true ∧ s.firstWaiting = none ∧ s.handOver = s.grantMedia) ∨
    (∃ a, s.working = true ∧ s.mediaWaits = true ∧ s.firstWaiting = some a ∧ s.waitCount < 4 ∧
      s.handOver = { s.grantMedia with waitCount := s.waitCount + 1 }) ∨
    (∃ a, s.working = true ∧ (s.mediaWaits = true → 4 ≤ s.waitCount) ∧ s.firstWaiting = some a ∧
      s.handOver = { s.grantHouse a with waitCount := 0 }) ∨
    (s.working = true ∧ s.mediaWaits = false ∧ s.firstWaiting = none ∧ s.handOver = { s with port := .free }) := by
  by_cases hw : s.working = false
  · exact .inl ⟨hw, by simp [State.handOver, hw]⟩
  · have hw' : s.working = true := by simpa using hw
    cases hm : s.mediaWaits <;> cases hf : s.firstWaiting with
    | none => simp [State.handOver, hw', hm, hf]
    | some a =>
      by_cases hc : s.waitCount < 4 <;> simp [State.handOver, hw', hm, hf, hc] <;> omega

/-- A house agent granted first in the rotation order was waiting. -/
theorem State.firstWaiting_has (s : State) (a : Agent) (h : s.firstWaiting = some a) : s.requests.has a = true :=
  List.find?_some h

/-! ## Taking an event -/

/-- With no tick in progress, an event is taken as it stands. -/
@[simp] theorem State.settle_of_none (s : State) (h : s.tick = TickWork.none) : s.settle = s := by
  simp [State.settle, h]

/-- An event taken with no tick in progress. -/
theorem perform_of_none (f : State → Option State) (s : State) (h : s.tick = TickWork.none) :
    perform f s = .next ((f s).getD s) := by
  simp [perform, h]

/-- An event that cannot be taken leaves the state as it is (log entry 5). -/
theorem perform_of_untaken (f : State → Option State) (s : State) (h : s.tick = TickWork.none) (hf : f s = none) :
    perform f s = .next s := by
  simp [perform_of_none f s h, hf]

/-- No word of a media transaction passes while the part does not work (R6). -/
theorem State.wordTxn_of_held (s : State) (d : Direction) (h : s.working = false) : s.wordTxn d = none := by
  unfold State.wordTxn
  split <;> simp [h]

/-- No fetch completes while the part does not work (R154, R159). -/
theorem State.fetchReady_of_held (s : State) (c : Instr) (h : s.working = false) : s.fetchReady c = false := by
  simp [State.fetchReady, h]

/-- An event always leaves a next state. -/
theorem perform_next (f : State → Option State) (s : State) : ∃ t, perform f s = .next t := ⟨_, rfl⟩

/-- A command of the command ring whose fetch stands ready is executed, and the fetch finishes (R143). -/
theorem execCommand_of_takes (c : Instr) (tag : Word) (code : Byte) (run : State → State × Answer) (s : State)
    (h : s.takes c) : execCommand c tag code run s = .next ((run s).1.finishFetch tag code (run s).2) := by
  simp [execCommand, perform, h.1, h.2]

/-- When a word of a media transaction can pass by a step of its own. -/
theorem State.wordTxn_some (s : State) (d : Direction) (t : MediaTxn) :
    s.wordTxn d = some t ↔
      s.media = some t ∧ s.working = true ∧ s.port = .media ∧ t.phase = .data ∧ t.dir = d ∧ t.passed < t.count := by
  unfold State.wordTxn
  cases hm : s.media with
  | none => simp
  | some u =>
    by_cases h : s.working = true ∧ s.port = .media ∧ u.phase = .data ∧ u.dir = d ∧ u.passed < u.count
    · simp only [h, and_self, if_true, Option.some.injEq]
      constructor
      · rintro rfl
        exact ⟨rfl, trivial, trivial, h.2.2.1, h.2.2.2.1, h.2.2.2.2⟩
      · exact fun h => h.1
    · simp only [h, if_false, Option.some.injEq]
      constructor
      · exact fun h => absurd h (by simp)
      · rintro ⟨rfl, h'⟩
        exact absurd h' h

/-- When a fetch can complete with a command. -/
theorem State.fetchReady_iff (s : State) (c : Instr) :
    s.fetchReady c = true ↔ s.working = true ∧ s.fetch.isSome = true ∧ s.fetched = some c := by
  simp [State.fetchReady, and_assoc]

/-! ## The stay state and the PIN (chapter 6) -/

/-- A command taken only in an OCCUPIED stay. -/
theorem State.inStay_cases (s : State) (run : State → State × Answer) :
    (s.stay.state = .vacant ∧ s.inStay run = (s, .noStay, .absent)) ∨
      (s.stay.state = .closing ∧ s.inStay run = (s, .closing, .absent)) ∨
      (s.stay.state = .occupied ∧ s.inStay run = run s) := by
  cases h : s.stay.state <;> simp [State.inStay, h]

/-- A PIN comparison: LOCKED_OUT, a match, or a wrong try (R86). -/
theorem State.comparePin_cases (s : State) (p : PinField) (matched : State → State × Answer) :
    (0 < s.lock.lockout ∧ s.comparePin p matched = (s, .lockedOut, .lockedOut s.lock.lockout)) ∨
      (s.lock.lockout = 0 ∧ s.pinMatches p = true ∧
        s.comparePin p matched = matched { s with lock := { s.lock with tries := 0 } }) ∨
      (s.lock.lockout = 0 ∧ s.pinMatches p = false ∧ s.comparePin p matched = s.wrongPin) := by
  by_cases h : 0 < s.lock.lockout
  · exact .inl ⟨h, by simp [State.comparePin, h]⟩
  · have h0 : s.lock.lockout = 0 := by omega
    cases hp : s.pinMatches p <;> simp [State.comparePin, h0, hp]

/-! ## A tick is whole (R138, R145) -/

/-- A titles update keeps the tick's outstanding work. -/
@[simp] theorem State.countPreview_tick (s : State) (e : TitleEntry) : (s.countPreview e).tick = s.tick := by
  unfold State.countPreview
  split <;> simp

@[simp] theorem State.clearSeen_tick (s : State) (t : BitVec 16) : (s.clearSeen t).tick = s.tick := rfl

@[simp] theorem State.meterEntry_tick (s : State) (e : TitleEntry) : (s.meterEntry e).tick = s.tick := by
  unfold State.meterEntry
  split <;> simp

@[simp] theorem State.makeCommit_tick (s : State) (e : TitleEntry) (n : Nat) : (s.makeCommit e n).tick = s.tick := rfl

@[simp] theorem State.exhaust_tick (s : State) (t : BitVec 16) (r : PreviewReason) : (s.exhaust t r).tick = s.tick := by
  simp [State.exhaust]

@[simp] theorem State.lapse_tick (s : State) (e : TitleEntry) : (s.lapse e).tick = s.tick := by
  simp [State.lapse]

@[simp] theorem State.endPreview_tick (s : State) (e : TitleEntry) : (s.endPreview e).tick = s.tick := by
  unfold State.endPreview
  repeat' (first | simp | split)

/-- The meter keeps what the lift and the lockout have outstanding. -/
theorem State.meterRun_keeps (ts : List (BitVec 16)) : ∀ s : State,
    (State.meterRun ts s).tick.lift = s.tick.lift ∧ (State.meterRun ts s).tick.lockout = s.tick.lockout := by
  induction ts with
  | nil => intro s; exact ⟨rfl, rfl⟩
  | cons t rest ih =>
    intro s
    simp only [State.meterRun]
    split
    · exact ih s
    · split
      · exact ⟨rfl, rfl⟩
      · simpa using ih (s.meterEntry _)

/-- Going on with its outstanding titles, the meter keeps what the lift and the lockout have outstanding. -/
theorem State.runMeter_keeps (s : State) :
    s.runMeter.tick.lift = s.tick.lift ∧ s.runMeter.tick.lockout = s.tick.lockout := State.meterRun_keeps _ s

/-- What a step of the meter does, if it is taken: the meter stands at an entry where `acts` holds, `act` is done to it, and the
meter goes on. -/
theorem State.meterStep_cases {s t : State} {acts : State → TitleEntry → Bool} {act : State → TitleEntry → State}
    (h : s.meterStep acts act = some t) :
    ∃ n rest e, s.runMeter.tick.meter = n :: rest ∧ s.runMeter.title? n = some e ∧ acts s.runMeter e = true ∧
      t = State.meterRun rest ((act s.runMeter e).clearSeen e.number) := by
  obtain ⟨⟨rest, e⟩, hat, rfl⟩ := Option.map_eq_some_iff.mp h
  unfold State.meterAt at hat
  split at hat
  · contradiction
  · rename_i n rest' hm
    split at hat
    · contradiction
    · rename_i e' he
      split at hat
      · rename_i ha
        obtain ⟨rfl, rfl⟩ := Prod.mk.injEq .. ▸ Option.some.inj hat
        exact ⟨n, rest', e', hm, he, ha, rfl⟩
      · contradiction

/-- A step of the meter keeps what the lift and the lockout have outstanding, if what it does to the entry keeps it. -/
theorem State.meterStep_keeps {s t : State} {acts : State → TitleEntry → Bool} {act : State → TitleEntry → State}
    (hact : ∀ r e, (act r e).tick = r.tick) (h : s.meterStep acts act = some t) :
    t.tick.lift = s.tick.lift ∧ t.tick.lockout = s.tick.lockout := by
  obtain ⟨n, rest, e, -, -, -, rfl⟩ := State.meterStep_cases h
  simp only [State.meterRun_keeps, State.clearSeen_tick, hact, State.runMeter_keeps, and_self]

/-- PREVIEW_END keeps what the lift and the lockout have outstanding. -/
theorem State.previewEndStep_keeps (s t : State) (h : s.previewEndStep = some t) :
    t.tick.lift = s.tick.lift ∧ t.tick.lockout = s.tick.lockout :=
  State.meterStep_keeps (fun r e => by simp) h

/-- RENTAL_LAPSED keeps what the lift and the lockout have outstanding. -/
theorem State.rentalLapsedStep_keeps (s t : State) (h : s.rentalLapsedStep = some t) :
    t.tick.lift = s.tick.lift ∧ t.tick.lockout = s.tick.lockout :=
  State.meterStep_keeps (fun r e => by simp) h

/-- Once the meter has finished, it has nothing outstanding; the lift's and the lockout's work stands as it did. -/
theorem State.finishMeter_tick (n : Nat) : ∀ s : State,
    (s.finishMeter n).tick = ⟨[], s.tick.lift, s.tick.lockout⟩ := by
  induction n with
  | zero => intro s; rfl
  | succ n ih =>
    intro s
    simp only [State.finishMeter]
    split
    · rename_i t ht
      have := State.previewEndStep_keeps s t ht
      rw [ih t, this.1, this.2]
    · split
      · rename_i t ht
        have := State.rentalLapsedStep_keeps s t ht
        rw [ih t, this.1, this.2]
      · rfl

theorem State.settleMeter_tick (s : State) : s.settleMeter.tick = ⟨[], s.tick.lift, s.tick.lockout⟩ :=
  (State.finishMeter_tick _ s.runMeter).trans (by rw [(State.runMeter_keeps s).1, (State.runMeter_keeps s).2])

theorem State.settleLift_tick (s : State) : s.settleLift.tick = ⟨s.tick.meter, false, s.tick.lockout⟩ := by
  unfold State.settleLift State.liftExpiredStep
  split
  · simp
  · rename_i h
    have : s.tick.lift = false := by simpa using h
    simp [← this]

theorem State.settleLockout_tick (s : State) : s.settleLockout.tick = ⟨s.tick.meter, s.tick.lift, false⟩ := by
  unfold State.settleLockout State.lockoutEndedStep
  split
  · simp
  · rename_i h
    have : s.tick.lockout = false := by simpa using h
    simp [← this]

/-- In every order of the owners, no work of the tick is left. -/
theorem State.settleIn_tick (s : State) (o : TickOrder) : (s.settleIn o).tick = TickWork.none := by
  cases o <;>
    simp [State.settleIn, State.settleMeter_tick, State.settleLift_tick, State.settleLockout_tick, TickWork.none]

/-- A tick that is completed leaves nothing outstanding. -/
@[simp] theorem State.settle_tick (s : State) : s.settle.tick = TickWork.none := by
  unfold State.settle
  split
  · assumption
  · exact State.settleIn_tick _ _

/-! ## The retained store -/

/-- A decay leaves what the store has room for, or the store as it was. -/
theorem State.decay_cases (s : State) (left : Retained) :
    (left.inWidth = true ∧ s.decay left = s.holding left) ∨ (left.inWidth = false ∧ s.decay left = s) := by
  unfold State.decay
  cases left.inWidth <;> simp

/-- Contents put into the retained store change nothing but its items. -/
theorem State.holding_keeps (s : State) (left : Retained) :
    s.holding left =
      { s with
        siteKey := left.siteKey, tariff := left.tariff, stay := left.stay, lock := left.lock
        titles := (s.holding left).titles, charges := (s.holding left).charges } ∧
      (s.holding left).charges.current = s.charges.current ∧ (s.holding left).charges.staged = s.charges.staged ∧
      (s.holding left).charges.write = s.charges.write := ⟨rfl, rfl, rfl, rfl⟩

/-- A decay changes nothing but the items of the retained store. -/
theorem State.decay_keeps (s : State) (left : Retained) :
    (s.decay left).checkWord = s.checkWord ∧ (s.decay left).supply = s.supply ∧ (s.decay left).tick = s.tick ∧
      (s.decay left).pending = s.pending ∧ (s.decay left).store = s.store ∧
      (s.decay left).charges.write = s.charges.write := by
  rcases State.decay_cases s left with ⟨-, h⟩ | ⟨-, h⟩ <;> rw [h] <;> exact ⟨rfl, rfl, rfl, rfl, rfl, rfl⟩

end Sys2Proof.Machine
end

