-- ==== Sys2Proof/Laws/PerInstr.lean ====
section
/-! SUPPORT. The family RecordLength: the record of a command of the command ring is 32 bytes, one lemma per command. -/

namespace Sys2Proof.Laws

open Sys2Proof.Machine

/-- The record of a command, where it has one, is the 32 bytes of a slot of the command ring (section 12.4). -/
def RecordLength.Statement (i : Instr) : Prop := ∀ r, encodeRecord i = some r → r.length = 32

/-- A record whose parameters are at most 24 bytes is 32 bytes. -/
theorem RecordLength.of_fields (i : Instr) (tag : Word) (code : Byte) (ps : List Byte)
    (h : recordFields i = some (tag, code, ps)) (hl : ps.length ≤ 24) : RecordLength.Statement i := by
  intro r hr
  rw [encodeRecord, h] at hr
  injection hr with hr
  subst hr
  simp [padTo_length 24 ps hl]

/-- A row that is no command record has none. -/
theorem RecordLength.of_none (i : Instr) (h : recordFields i = none) : RecordLength.Statement i := by
  intro r hr
  rw [encodeRecord, h] at hr
  exact absurd hr (by simp)

theorem RecordLength.mediaCommandPhase (dir : Direction) (addr : Word) (count : Nat) : RecordLength.Statement (Instr.mediaCommandPhase dir addr count) :=
  RecordLength.of_none _ rfl

theorem RecordLength.mediaTransactionComplete (words : List WriteWord) : RecordLength.Statement (Instr.mediaTransactionComplete words) :=
  RecordLength.of_none _ rfl

theorem RecordLength.mediaResume : RecordLength.Statement Instr.mediaResume :=
  RecordLength.of_none _ rfl

theorem RecordLength.anchorWrite (w : WriteWord) : RecordLength.Statement (Instr.anchorWrite w) :=
  RecordLength.of_none _ rfl

theorem RecordLength.commandRingSlots (w : WriteWord) : RecordLength.Statement (Instr.commandRingSlots w) :=
  RecordLength.of_none _ rfl

theorem RecordLength.reportRingSlots (w : WriteWord) : RecordLength.Statement (Instr.reportRingSlots w) :=
  RecordLength.of_none _ rfl

theorem RecordLength.commandTail (w : WriteWord) : RecordLength.Statement (Instr.commandTail w) :=
  RecordLength.of_none _ rfl

theorem RecordLength.reportTail (w : WriteWord) : RecordLength.Statement (Instr.reportTail w) :=
  RecordLength.of_none _ rfl

theorem RecordLength.headerWrite (w : WriteWord) : RecordLength.Statement (Instr.headerWrite w) :=
  RecordLength.of_none _ rfl

theorem RecordLength.payloadWrite (w : WriteWord) : RecordLength.Statement (Instr.payloadWrite w) :=
  RecordLength.of_none _ rfl

theorem RecordLength.laneReadWord : RecordLength.Statement Instr.laneReadWord :=
  RecordLength.of_none _ rfl

theorem RecordLength.commandFetchRequest : RecordLength.Statement Instr.commandFetchRequest :=
  RecordLength.of_none _ rfl

theorem RecordLength.siteKey (tag : Word) (key : BitVec 64) : RecordLength.Statement (Instr.siteKey tag key) :=
  RecordLength.of_fields _ _ _ _ rfl (by simp)

theorem RecordLength.tariff (tag : Word) (taxRate : BitVec 16) (siteClamp houseCeiling discreetClass : Byte) (liftMinutes : BitVec 16) : RecordLength.Statement (Instr.tariff tag taxRate siteClamp houseCeiling discreetClass liftMinutes) :=
  RecordLength.of_fields _ _ _ _ rfl (by simp)

theorem RecordLength.openStay (tag : Word) (number : Word) (ceiling : Byte) (credit : Word) (discount : Byte) (pin : PinField) : RecordLength.Statement (Instr.openStay tag number ceiling credit discount pin) :=
  RecordLength.of_fields _ _ _ _ rfl (by simp [recordFields.pinBytes, PinField.places])

theorem RecordLength.closeStay (tag : Word) : RecordLength.Statement (Instr.closeStay tag) :=
  RecordLength.of_fields _ _ _ _ rfl (by simp)

theorem RecordLength.stayQuery (tag : Word) : RecordLength.Statement (Instr.stayQuery tag) :=
  RecordLength.of_fields _ _ _ _ rfl (by simp)

theorem RecordLength.ackCharges (tag : Word) (sequence : Word) : RecordLength.Statement (Instr.ackCharges tag sequence) :=
  RecordLength.of_fields _ _ _ _ rfl (by simp)

theorem RecordLength.logRegion (tag : Word) (base : Word) (slots : BitVec 16) : RecordLength.Statement (Instr.logRegion tag base slots) :=
  RecordLength.of_fields _ _ _ _ rfl (by simp)

theorem RecordLength.setCredit (tag : Word) (limit : Word) : RecordLength.Statement (Instr.setCredit tag limit) :=
  RecordLength.of_fields _ _ _ _ rfl (by simp)

theorem RecordLength.buy (tag : Word) (title : BitVec 16) : RecordLength.Statement (Instr.buy tag title) :=
  RecordLength.of_fields _ _ _ _ rfl (by simp)

theorem RecordLength.bind (tag : Word) (lane role service : Byte) (base : Word) (slots : BitVec 16) : RecordLength.Statement (Instr.bind tag lane role service base slots) :=
  RecordLength.of_fields _ _ _ _ rfl (by simp)

theorem RecordLength.unbind (tag : Word) (lane : Byte) : RecordLength.Statement (Instr.unbind tag lane) :=
  RecordLength.of_fields _ _ _ _ rfl (by simp)

theorem RecordLength.unlock (tag : Word) (pin : PinField) : RecordLength.Statement (Instr.unlock tag pin) :=
  RecordLength.of_fields _ _ _ _ rfl (by simp [recordFields.pinBytes, PinField.places])

theorem RecordLength.relock (tag : Word) : RecordLength.Statement (Instr.relock tag) :=
  RecordLength.of_fields _ _ _ _ rfl (by simp)

theorem RecordLength.setCeiling (tag : Word) (ceiling : Byte) (pin : PinField) : RecordLength.Statement (Instr.setCeiling tag ceiling pin) :=
  RecordLength.of_fields _ _ _ _ rfl (by simp [recordFields.pinBytes, PinField.places])

theorem RecordLength.changePin (tag : Word) (old new : PinField) : RecordLength.Statement (Instr.changePin tag old new) :=
  RecordLength.of_fields _ _ _ _ rfl (by simp [recordFields.pinBytes, PinField.places])

theorem RecordLength.queryTitle (tag : Word) (title : BitVec 16) : RecordLength.Statement (Instr.queryTitle tag title) :=
  RecordLength.of_fields _ _ _ _ rfl (by simp)

theorem RecordLength.restart (tag : Word) : RecordLength.Statement (Instr.restart tag) :=
  RecordLength.of_fields _ _ _ _ rfl (by simp)

theorem RecordLength.unknown (tag : Word) (code : Byte) : RecordLength.Statement (Instr.unknown tag code) :=
  RecordLength.of_fields _ _ _ _ rfl (by simp)

theorem RecordLength.reportTake : RecordLength.Statement Instr.reportTake :=
  RecordLength.of_none _ rfl

theorem RecordLength.reportWriteComplete : RecordLength.Statement Instr.reportWriteComplete :=
  RecordLength.of_none _ rfl

theorem RecordLength.logWriteBegin : RecordLength.Statement Instr.logWriteBegin :=
  RecordLength.of_none _ rfl

theorem RecordLength.logWriteComplete : RecordLength.Statement Instr.logWriteComplete :=
  RecordLength.of_none _ rfl

theorem RecordLength.secondsTick : RecordLength.Statement Instr.secondsTick :=
  RecordLength.of_none _ rfl

theorem RecordLength.previewEnd : RecordLength.Statement Instr.previewEnd :=
  RecordLength.of_none _ rfl

theorem RecordLength.rentalLapsed : RecordLength.Statement Instr.rentalLapsed :=
  RecordLength.of_none _ rfl

theorem RecordLength.liftExpired : RecordLength.Statement Instr.liftExpired :=
  RecordLength.of_none _ rfl

theorem RecordLength.lockoutEnded : RecordLength.Statement Instr.lockoutEnded :=
  RecordLength.of_none _ rfl

theorem RecordLength.enterRetain (passed : List WriteWord) : RecordLength.Statement (Instr.enterRetain passed) :=
  RecordLength.of_none _ rfl

theorem RecordLength.supplyRecover : RecordLength.Statement Instr.supplyRecover :=
  RecordLength.of_none _ rfl

theorem RecordLength.supplyRelapse : RecordLength.Statement Instr.supplyRelapse :=
  RecordLength.of_none _ rfl

theorem RecordLength.enterRun (changed : List (BitVec 26 × Byte)) : RecordLength.Statement (Instr.enterRun changed) :=
  RecordLength.of_none _ rfl

theorem RecordLength.powerOn : RecordLength.Statement Instr.powerOn :=
  RecordLength.of_none _ rfl

theorem RecordLength.resetAssert (passed : List WriteWord) : RecordLength.Statement (Instr.resetAssert passed) :=
  RecordLength.of_none _ rfl

theorem RecordLength.resetRelease : RecordLength.Statement Instr.resetRelease :=
  RecordLength.of_none _ rfl

theorem RecordLength.supplySample (millivolts : Nat) : RecordLength.Statement (Instr.supplySample millivolts) :=
  RecordLength.of_none _ rfl

theorem RecordLength.houseAccessDiscarded : RecordLength.Statement Instr.houseAccessDiscarded :=
  RecordLength.of_none _ rfl

theorem RecordLength.retainedStoreDecay : RecordLength.Statement Instr.retainedStoreDecay :=
  RecordLength.of_none _ rfl

end Sys2Proof.Laws
end

