-- ==== Sys2Proof/Tests/Slice0.lean ====
section
/-! SUPPORT. Tests of the model against the manual's tables and worked cases, a smoke test of WellFormed, and a witness for the
hypotheses of each statement. -/

namespace Sys2Proof.Tests

open Sys2Proof Sys2Proof.Machine

/- One theorem at a time: elaborated side by side, the tests below need a thread (and its stack) each. -/
set_option Elab.async false

/-! ## WellFormed refuses an ill-formed term of each kind -/

theorem test_command_phase_in_store : wellFormed (.mediaCommandPhase .read 0x03FFFFC0 16) = true := by decide
theorem test_command_phase_outside_store : wellFormed (.mediaCommandPhase .read 0x04000000 1) = false := by decide
theorem test_command_phase_misaligned : wellFormed (.mediaCommandPhase .write 0x102 1) = false := by decide
theorem test_command_phase_empty : wellFormed (.mediaCommandPhase .write 0x100 0) = false := by decide
theorem test_command_phase_crosses_block : wellFormed (.mediaCommandPhase .read 0x104 16) = false := by decide
theorem test_too_many_words : wellFormed (.mediaTransactionComplete (List.replicate 17 ⟨0, 0⟩)) = false := by decide
theorem test_too_many_cut_words : wellFormed (.enterRetain (List.replicate 17 ⟨0, 0⟩)) = false := by decide
theorem test_too_many_held_words : wellFormed (.resetAssert (List.replicate 17 ⟨0, 0⟩)) = false := by decide
theorem test_unknown_code_assigned : wellFormed (.unknown 1 0x11) = false := by decide
theorem test_unknown_code_unassigned : wellFormed (.unknown 1 0x12) = true := by decide

/-! ## Command records written out from section 12.4 -/

theorem test_record_bind :
    decodeRecord ([0x12, 0x34, 0x56, 0x78, 0x0A, 0, 0, 0, 2, 1, 43, 0xEE, 0x00, 0x04, 0x80, 0x00, 0x01, 0x00] ++ zeros 14) =
      .bind 0x12345678 2 1 43 0x00048000 256 := by decide
theorem test_record_tariff :
    decodeRecord ([0, 0, 0, 1, 0x02, 9, 9, 9, 0x03, 0x39, 5, 3, 4, 0x00, 0x78] ++ zeros 17) =
      .tariff 1 825 5 3 4 120 := by decide
theorem test_record_open_stay :
    decodeRecord ([0, 0, 0, 2, 0x03, 0, 0, 0, 0, 0, 0, 7, 4, 0, 0, 0x13, 0x88, 10, 4, 1, 2, 3, 4] ++ zeros 9) =
      .openStay 2 7 4 5000 10 ⟨4, 1, 2, 3, 4, 0, 0, 0, 0⟩ := by decide
theorem test_record_change_pin :
    decodeRecord ([0, 0, 0, 3, 0x0F, 0, 0, 0, 4, 1, 2, 3, 4, 0, 0, 0, 0, 5, 5, 6, 7, 8, 9, 0, 0, 0] ++ zeros 6) =
      .changePin 3 ⟨4, 1, 2, 3, 4, 0, 0, 0, 0⟩ ⟨5, 5, 6, 7, 8, 9, 0, 0, 0⟩ := by decide
theorem test_record_buy : decodeRecord ([0, 0, 0, 4, 0x09, 0, 0, 0, 0x17, 0xD4] ++ zeros 22) = .buy 4 6100 := by decide
theorem test_record_code_zero : decodeRecord (zeros 32) = .unknown 0 0 := by decide
theorem test_no_table_word : decodeTableWord 32 0x12345678 = none := by decide

/-! ## Worked values of the manual -/

/-- Section 4.6, case 1. -/
theorem test_keystream_zero_key : keystream 0 1 (payloadPosition 2 0) = 0x03061830 := by decide
/-- Section 4.6, case 2. -/
theorem test_descramble_pair : descrambleWord (be64 0x00010000 0x00000100) 41 5 3 0x6C0CE371 = 0x10000000 := by decide
/-- Section 4.6, case 3. -/
theorem test_unwrap_even_high : unwrapWord 0 41 300 0 0x81350790 = 0x00010000 := by decide
/-- Section 4.6, case 3. -/
theorem test_unwrap_even_low : keystream 0 41 (unwrapPosition 300 1) = 0x8135079B := by decide
/-- The note under R36. -/
theorem test_crc_check_text : noticeCrc [0x31, 0x32, 0x33, 0x34, 0x35, 0x36, 0x37, 0x38, 0x39] = 0x29B1 := by decide +kernel
/-- The note under R36. -/
theorem test_crc_of_nothing : noticeCrc [] = 0xFFFF := by decide
/-- Section 8.2, the worked charge. -/
theorem test_charge_worked : chargeNet 1495 10 = 1346 ∧ chargeTax 1346 825 = 111 := by decide
/-- Section 8.2, the largest charge. -/
theorem test_charge_largest : chargeNet 65535 0 = 65535 ∧ chargeTax 65535 3000 = 19661 := by decide
/-- Section 8.2, the half units and the smallest price. -/
theorem test_charge_halves :
    chargeNet 1 90 = 0 ∧ chargeNet 5 90 = 1 ∧ chargeTax 200 25 = 1 ∧ chargeTax 199 25 = 0 := by decide
/-- The table of section 12.1. -/
theorem test_verdict_bytes :
    verdictByte .shownOpened ⟨false, true, false, false, true⟩ = 0x91 ∧
      verdictByte .shownClear ⟨true, false, false, true, false⟩ = 0x48 ∧
      verdictByte .heldUnpaid ⟨true, false, false, false, false⟩ = 0x0B ∧
      verdictByte .shownOpened ⟨false, false, true, false, false⟩ = 0x21 ∧
      verdictByte .heldUnderrun VerdictFlags.none = 0x06 := by decide
/-- Section 12.1: byte 2 of a picture cell scrambled EVEN with continuity 5, and of a clear control cell. -/
theorem test_header_byte :
    headerKind 0x15 = .picture ∧ headerScramble 0x15 = .even ∧ headerKind 0x46 = .control ∧ headerScramble 0x46 = .clear ∧
      headerKind 0xC0 = .filler ∧ headerScramble 0x30 = .clear := by decide
/-- Section 12.3: the part working, the room VACANT and both rings OPEN. -/
theorem test_part_word :
    partWord { State.reset with commandRing := .inForce 0x1000 16 0, reportRing := .inForce 0x2000 16 0 } = 0x4E000011 := by
  decide

/-! ## States for the tests -/

/-- The store with the bytes of a command's record from 0x1000 up. -/
def recordStore (c : Instr) : List Host.Cell :=
  (((encodeRecord c).getD []).foldl (fun (p : Nat × List Host.Cell) b => (p.1 + 1, Memory.write p.2 p.1 b)) (0x1000, [])).2

/-- A state in which the fetch that holds the store port reads a command's record, in slot 15 of a ring of 16 whose other rings
stand elsewhere. -/
def fetching (c : Instr) (s : State) : State :=
  { s with
    store := recordStore c, port := .house .command 0x1000 [] false, fetch := some 15
    commandRing := .inForce 0x0E20 16 15 }

/-- The PIN 1234. -/
def pin : PinField := ⟨4, 1, 2, 3, 4, 0, 0, 0, 0⟩

/-- The PIN 99999. -/
def otherPin : PinField := ⟨5, 9, 9, 9, 9, 9, 0, 0, 0⟩

/-- A title OFFERED, seen on the main picture. -/
def film : TitleEntry :=
  { number := 6100, rating := 2, price := 1295, limit := 300, hours := 24, state := .offered, used := 0, seenMain := true
    seenMosaic := false }

/-- The slot of service 41. -/
def slot41 : ServiceSlot :=
  { service := 41, refs := 1, title := 6100, rating := 2, pay := true, current := ⟨1, 2, 300, true⟩
    previous := ⟨3, 4, 299, true⟩, epoch := 9 }

/-- The entry of a picture cell of service 41 scrambled EVEN under its current pair. -/
def pictureEntry : Entry :=
  { state := .written, kind := .picture, scramble := .even, epoch := 9, keyed := true, title := 6100, rating := 2, pay := true
    continuity := 5, lostBefore := false }

/-- The binding of the main lane. -/
def binding41 : Binding := { base := 0x10000, slots := 16, service := 41, role := .main }

/-- The main lane, LOCKED, with a picture cell in its slot 0. -/
def lane41 : Lane :=
  { binding := some binding41, alignment := .locked, good := 0, bad := 2, reference := some 5
    slice := pictureEntry :: List.replicate 15 Entry.fresh, assembly := none }

/-- An occupied room: the worked stay of section 8.8 after one purchase, with the main lane bound. -/
def room : State :=
  { State.reset with
    stay := ⟨.occupied, 7, 100, 4, 5000, 10⟩
    tariff := ⟨825, 5, 3, 8, 30⟩
    lock := ⟨some [1, 2, 3, 4], 0, 0, 0⟩
    titles := [film, { film with number := 7700, rating := 1, price := 2495, state := .purchased 40 1, seenMain := false }]
    charges := ⟨1, 0, 2246, 185, 1, [⟨⟨1, 7, 40, 2431, .purchase false 7700 41 2246 185⟩, false⟩], some ⟨0x8000, 8, 7⟩, none,
      none⟩
    lanes := ⟨lane41, Lane.unbound, Lane.unbound, Lane.unbound⟩
    slots := ⟨some slot41, none, none, none⟩ }

/-- The outcome of a command satisfies a condition. -/
def leaves (c : Instr) (s : State) (p : State → Bool) : Bool :=
  match exec c s with
  | .next t => p t
  | _ => false

/-! ## Single steps -/

/-- Section 8.8, step 2: BUY of 6,100 at price 1,295 under discount 10 and tax 825 gives net 1,166 and tax 96. -/
theorem test_buy : leaves (.buy 9 6100) (fetching (.buy 9 6100) room)
    (fun t => t.charges.netTotal == 2246 + 1166 && t.charges.taxTotal == 185 + 96 && t.charges.lastIssued == 2) = true := by
  decide +kernel
/-- Section 8.8, step 6: BUY of a dearer title fails with CREDIT and charges nothing. -/
theorem test_buy_credit : leaves (.buy 9 6100) (fetching (.buy 9 6100) { room with stay := ⟨.occupied, 7, 100, 4, 3692, 10⟩ })
    (fun t => t.reports.map Report.body == [.result 9 9 .credit (.buyCredit 1262 1261)]) = true := by decide +kernel
/-- R90: a correct PIN lifts for 30 minutes. -/
theorem test_unlock : leaves (.unlock 3 pin) (fetching (.unlock 3 pin) room) (fun t => t.lock.lift == 1800) = true := by
  decide +kernel
/-- R87: the third wrong try starts a lockout. -/
theorem test_lockout : leaves (.unlock 3 otherPin) (fetching (.unlock 3 otherPin) { room with lock := ⟨some [1, 2, 3, 4], 2, 0, 0⟩ })
    (fun t => t.lock.lockout == 900 && t.lock.tries == 0) = true := by decide +kernel
/-- Section 7.8, slot 4: an opened preview cell of the current pair. -/
theorem test_verdict_opened :
    (room.judge binding41 pictureEntry true).reason = .shownOpened ∧
      (room.judge binding41 pictureEntry true).flags = ⟨false, true, false, false, false⟩ := by decide +kernel
/-- Section 7.8, slot 2: two epochs back is STALE. -/
theorem test_verdict_stale : (room.judge binding41 { pictureEntry with epoch := 7 } true).reason = .heldStale := by decide +kernel
/-- Section 1.5's example, decision 5: with the wait count at 4 COMMAND is served, standing first in the rotation order. -/
theorem test_arbiter :
    let s := { State.reset with
      waitCount := 4, requests := ⟨true, true, true⟩, media := some ⟨.read, 0x100, 1, 0, .plain, .waiting, false, none⟩ }
    s.handOver.waitCount = 0 ∧ s.handOver.rotation = [.report, .log, .command] := by decide +kernel
/-- Section 1.5's example, decisions 4 and 5: the decoder's next command phase stands ready as its read completes, and REPORT, LOG
and COMMAND wait. With the wait count at 3 MEDIA is granted again and the count is 4; at 4 COMMAND is served, and MEDIA waits. -/
theorem test_back_to_back :
    let s := fun n : Nat => { State.reset with
      waitCount := n, requests := ⟨true, true, true⟩, nextPhase := some ⟨.read, 0x140, 16⟩, port := .media
      media := some ⟨.read, 0x100, 16, 0, .plain, .data, false, none⟩ }
    leaves (.mediaTransactionComplete []) (s 3)
        (fun t => t.waitCount == 4 && t.port == .media && t.media.map MediaTxn.addr == some 0x140 && t.nextPhase == none) = true ∧
      leaves (.mediaTransactionComplete []) (s 4)
        (fun t => t.waitCount == 0 && t.rotation == [.report, .log, .command] && t.mediaWaits && t.port != .media) = true := by
  decide +kernel
/-- R1: a command phase behind a transaction in flight is not taken yet. -/
theorem test_next_phase :
    leaves (.mediaCommandPhase .read 0x140 16)
      { State.reset with port := .media, media := some ⟨.read, 0x100, 16, 0, .plain, .data, false, none⟩ }
      (fun t => t.nextPhase == some ⟨.read, 0x140, 16⟩ && t.media.map MediaTxn.addr == some 0x100) = true := by decide +kernel
/-- R72: a seen OFFERED title counts its first second and becomes PREVIEW. -/
theorem test_tick : leaves .secondsTick room (fun t => t.titles.map TitleEntry.used == [1, 0]) = true := by decide +kernel
/-- R153, R154: the 32nd low sample ends RUN. -/
theorem test_supply_low : leaves (.supplySample 2849) { State.reset with supply := .run 31 } (fun t => !t.inRun) = true := by
  decide +kernel
/-- R12: the slots word opens the ring with head 0. -/
theorem test_ring_opens : leaves (.commandRingSlots ⟨16, 0⟩)
    { State.reset with
      port := .media, media := some ⟨.write, 0, 4, 1, .anchor, .data, false, none⟩, anchor := ⟨0x1000, 0, 0, 0, 0, 0⟩ }
    (fun t => t.commandRing == .inForce 0x1000 16 0) = true := by decide +kernel

/-! ## Witnesses for the hypotheses of the statements

Each theorem shows, for one statement and clause by clause, concrete states and operands that meet its hypotheses together. -/

/-- MEDIA holds the store port with a transaction. -/
def onBus (t : MediaTxn) (s : State) : State := { s with port := .media, media := some t }

/-- A transaction of the anchor block writing from byte 0, with `k` words passed. -/
def anchorWrites (k : Nat) : MediaTxn := ⟨.write, 0, 16, k, .anchor, .data, false, none⟩

/-- A transaction on the first half of the main lane's slot 0. -/
def laneTxn (dir : Direction) (k : Nat) (bound : Bool) (j : Option Judgement) : MediaTxn :=
  ⟨dir, 0x10000, 16, k, .lane 0, .data, bound, j⟩

/-- A held transaction. -/
def heldTxn (bound : Bool) : MediaTxn := ⟨.read, 0x10040, 16, 6, .lane 0, .held, bound, none⟩

/-- The room in a house access of an agent. -/
def houseHolds (a : Agent) (orphan : Bool) (s : State) : State := { s with port := .house a 0x80E0 (List.replicate 8 7) orphan }

/-- The room in a tick, with the meter at title 6,100 at its preview's end and the lift and the lockout due. -/
def ending (e : TitleEntry) (credit : Nat) : State :=
  { room with
    titles := [e], stay := { room.stay with credit := credit }, tick := ⟨[6100], true, true⟩
    lock := ⟨some [1, 2, 3, 4], 0, 1, 1⟩ }

/-- The film at the last second of its preview. -/
def lastSecond : TitleEntry := { film with state := .preview, used := 299 }

/-- The film rented for a day from stay second 40, at the second at which the rental is due. -/
def lapsing : State :=
  { room with
    titles := [{ film with state := .purchased 40 1, seenMain := false }], tick := ⟨[6100], false, false⟩
    stay := { room.stay with seconds := 86440 } }

/-- The room in a supply state. -/
def supplied (x : SupplyState) : State := { room with supply := x }

/-- The room at the start of a tick's meter work. -/
def metering (lift lockout : Bool) : State := { room with tick := ⟨[7700, 6100], lift, lockout⟩ }

theorem witness_EmptyQueueStepIsAClockPeriod :
    ({ room with resetLine := true }.pending = [] ∧ { room with resetLine := true }.tick = TickWork.none ∧
      { room with resetLine := true }.working = false) ∧
    (room.pending = [] ∧ room.tick = TickWork.none ∧ room.working = true ∧
      { room with tickCount := 32766 }.tickCount + 1 ≠ 32768 ∧ { room with tickCount := 32767 }.tickCount + 1 = 32768) := by
  decide +kernel

theorem witness_EventsAreTakenWholeOrNotAtAll :
    (Instr.secondsTick ≠ .previewEnd ∧ Instr.secondsTick ≠ .rentalLapsed ∧ Instr.secondsTick ≠ .liftExpired ∧
      Instr.secondsTick ≠ .lockoutEnded) ∧
    ((ending lastSecond 5000).tick ≠ TickWork.none ∧ lapsing.tick ≠ TickWork.none ∧ (ending film 0).tick.lift = true ∧
      (ending film 0).tick.lockout = true ∧ lapsing.tick.lift = false ∧ lapsing.tick.lockout = false) ∧
    ((metering true false).runMeter.tick.meter = [] ∧ (metering true false).tick.meter = [7700, 6100] ∧
      (ending lastSecond 5000).previewEndStep.isSome = true ∧ lapsing.previewEndStep = none ∧
      lapsing.rentalLapsedStep.isSome = true ∧ lapsing.runMeter.tick.meter ≠ [] ∧
      (ending lastSecond 5000).runMeter.tick.meter ≠ []) ∧
    ((recordFields (.stayQuery 1)).isSome = true ∧ room.tick = TickWork.none ∧ room.fetchReady (.stayQuery 1) = false) := by
  decide +kernel

theorem witness_MediaTransactionsAskForTheStorePort :
    (inStore 0x03FFFFC0 = true ∧ isBurst 0x03FFFFC0 16 = true ∧ room.tick = TickWork.none ∧ room.media = none ∧
      room.working = true ∧ room.port = .free ∧ (houseHolds .log false room).port ≠ .free) ∧
    ({ room with resetLine := true }.working = false ∧ (onBus (anchorWrites 3) room).working = true ∧
      (onBus (anchorWrites 3) room).media.isSome = true ∧ (onBus (anchorWrites 3) room).nextPhase = none ∧
      { onBus (anchorWrites 3) room with nextPhase := some ⟨.read, 0x10000, 16⟩ }.nextPhase.isSome = true) ∧
    (Config.storeSize ≤ (0x04000000 : Word).toNat ∧ (0x03FFFFFF : Word).toNat < Config.storeSize ∧
      (0x03FFFFFF : Word).toNat % 4 ≠ 0 ∧ 64 < (0x03FFFFFC : Word).toNat % 64 + 4 * 2) ∧
    ({ room with media := some (heldTxn false) }.media = some (heldTxn false) ∧ (heldTxn false).phase = .held ∧
      (heldTxn false).bound = false ∧ { room with media := some (heldTxn false) }.port = .free) := by
  decide +kernel

/-- An unbound lane fits. -/
theorem unbound_fits : Lane.unbound.fits := ⟨by decide, by decide, fun _ h => by simp [Lane.unbound] at h, rfl⟩

/-- The main lane of the room fits. -/
theorem lane41_fits : lane41.fits :=
  ⟨by decide, by decide, fun _ h => by simp [lane41] at h, rfl, by decide, by decide, by decide, by decide⟩

theorem witness_LaneSafe : LaneSafe room :=
  ⟨fun n => match n with
    | 0 => lane41_fits
    | 1 => unbound_fits
    | 2 => unbound_fits
    | 3 => unbound_fits, by decide +kernel, by decide +kernel⟩

theorem witness_ABurstFallsInOneClass :
    (LaneSafe room ∧ isBurst 0x107C0 16 = true ∧ 15 < 16) ∧
    (63 < 64 ∧ (room.lanes.get 0).binding = some binding41 ∧ 0x10000 ≤ 0x107FF ∧ 0x107FF < 0x10000 + 16 * 128 ∧
      (∀ m, m ≠ 0 → (room.lanes.get m).binding = none) ∧ ¬ 0x10800 < 0x10000 + 16 * 128) ∧
    (let t : MediaTxn := ⟨.read, 0x10040, 16, 0, .lane 0, .waiting, true, none⟩
     t.dir = .read ∧ t.cls = .lane 0 ∧ t.bound = true ∧ lane41.slice[(t.addr - 0x10000) / 128]? = some pictureEntry ∧
      { t with bound := false }.bound = false ∧ { t with cls := .lane 1 }.cls = .lane 1 ∧ (room.lanes.get 1).binding = none) :=
  ⟨⟨witness_LaneSafe, by decide, by decide⟩, by decide +kernel, by decide +kernel⟩

theorem witness_AMediaTransactionCompletes :
    let full := laneTxn .read 16 true none
    let write : MediaTxn := ⟨.write, 0x2000, 2, 0, .plain, .data, false, none⟩
    let read : MediaTxn := ⟨.read, 0, 16, 0, .anchor, .data, false, none⟩
    ((onBus full room).tick = TickWork.none ∧ (onBus full room).working = true ∧ (onBus full room).media = some full ∧
      (onBus full room).port = .media ∧ full.phase = .data ∧ full.wordByWord = true ∧ full.left = 0) ∧
    ((onBus write room).media = some write ∧ write.phase = .data ∧ write.wordByWord = false ∧ write.dir = .write ∧
      [WriteWord.mk 1 0, WriteWord.mk 2 15].length = write.left) ∧
    ((onBus read room).media = some read ∧ read.phase = .data ∧ read.wordByWord = false ∧ read.dir = .read) ∧
    ({ onBus full room with nextPhase := some ⟨.read, 0x10080, 16⟩ }.nextPhase = some ⟨.read, 0x10080, 16⟩ ∧
      (onBus full room).nextPhase = none) := by
  decide +kernel

theorem witness_TheAnchorBlockReadsThePartsOwnWords :
    (8 ≠ 12 ∧ 8 ≠ 44 ∧ 8 ≠ 16) ∧
    (let s := { room with commandRing := .inForce 0x1000 16 15, reportRing := .inForce 0x2000 4 3 }
     s.commandRing = .inForce 0x1000 16 15 ∧ s.reportRing = .inForce 0x2000 4 3 ∧ s.readWord .anchor 12 = 15 ∧
      s.readWord .anchor 44 = 3) ∧
    (room.commandRing = .closed ∧ { room with reportRing := .badGeometry }.reportRing = .badGeometry) := by
  decide +kernel

theorem witness_AWrittenAnchorWordPasses :
    (∀ k ∈ [0, 1, 2, 3, 8, 9, 10, 15],
      (onBus (anchorWrites k) room).tick = TickWork.none ∧
        (onBus (anchorWrites k) room).wordTxn .write = some (anchorWrites k) ∧ (anchorWrites k).cls = .anchor) ∧
    (ownBehaviour (anchorWrites 3).nextAddr = false ∧ (anchorWrites 3).nextAddr ≠ 0 ∧ (anchorWrites 3).nextAddr ≠ 32) ∧
    ((anchorWrites 0).nextAddr = 0 ∧ (anchorWrites 1).nextAddr = 4 ∧ (anchorWrites 2).nextAddr = 8 ∧
      (anchorWrites 8).nextAddr = 32 ∧ (anchorWrites 9).nextAddr = 36 ∧ (anchorWrites 10).nextAddr = 40) ∧
    (WriteWord.mk 5 15).allMasked = true ∧ (WriteWord.mk 5 14).allMasked = false ∧ StoreSafe (onBus (anchorWrites 0) room) ∧
    StoreSafe { onBus (anchorWrites 0) room with store := [(3, 7), (5, 1)] } := by
  unfold StoreSafe
  decide +kernel

/-- A waiting fetch and a waiting report write, with MEDIA in the anchor block and a number of reports in the queue. -/
def ringsBusy (k queued : Nat) : State :=
  { onBus (anchorWrites k) room with
    requests := ⟨true, true, false⟩, fetch := some 3, waitCount := 2, causes := ⟨true, false, false, false⟩, liftMark := true
    reportWrite := some ⟨⟨.event .lockoutEnded, false⟩, 0x2000, false⟩
    reports := List.replicate queued ⟨.event .lockoutEnded, false⟩ }

theorem witness_TheCommandRingOpens :
    (ringsBusy 1 13).tick = TickWork.none ∧ (ringsBusy 1 13).wordTxn .write = some (anchorWrites 1) ∧
      (anchorWrites 1).cls = .anchor ∧ (anchorWrites 1).nextAddr = 4 ∧ (WriteWord.mk 256 0).allMasked = false := by
  decide +kernel

theorem witness_TheReportRingOpens :
    (∀ queued ∈ [0, 13, 14, 16],
      (ringsBusy 9 queued).tick = TickWork.none ∧ (ringsBusy 9 queued).wordTxn .write = some (anchorWrites 9) ∧
        (ringsBusy 9 queued).requests.report = (ringsBusy 9 queued).reportWrite.isSome ∧
        (ringsBusy 9 queued).reports.length ≤ 16) ∧
    (anchorWrites 9).cls = .anchor ∧ (anchorWrites 9).nextAddr = 36 ∧ (WriteWord.mk 4 0).allMasked = false := by
  decide +kernel

/-- A media transaction and all three house agents wait. -/
def busyPort (waits : Nat) : State :=
  { room with
    requests := ⟨true, true, true⟩, waitCount := waits
    media := some ⟨.read, 0x100, 1, 0, .plain, .waiting, false, none⟩ }

theorem witness_TheArbiterHandsOnThePort :
    ((busyPort 3).working = true ∧ (busyPort 3).mediaWaits = true ∧ (busyPort 3).firstWaiting = some .command ∧
      (busyPort 3).waitCount < 4) ∧
    ((busyPort 4).waitCount = 4 ∧ (busyPort 4).firstWaiting = some .command) ∧
    ({ busyPort 0 with requests := Requests.none }.mediaWaits = true ∧
      { busyPort 0 with requests := Requests.none }.requests.any = false) ∧
    (room.mediaWaits = false ∧ room.requests.any = false ∧ room.port = .free ∧ room.working = true) ∧
    (houseHolds .log false room).port ≠ .free ∧ (Requests.put ⟨true, false, false⟩ .command false).any = false ∧
    room.rotation.Perm Agent.restartOrder := by
  decide +kernel

/-- The decisions that follow one another when nothing but the arbiter acts. -/
def decisions : Nat → State
  | 0 => busyPort 4
  | n + 1 => (decisions n).handOver

/-- A hand-over keeps the part working. -/
theorem handOver_works (s : State) (h : s.working = true) : s.handOver.working = true := by
  simp only [State.handOver, h]
  repeat' split
  all_goals first
    | contradiction
    | exact h

theorem witness_EveryWaitIsBounded :
    ((decisions 0).waitCount ≤ 4 ∧ (decisions 0).rotation.Perm Agent.restartOrder ∧ (decisions 0).requests.has .log = true ∧
      (∀ i, (decisions i).working = true) ∧ ∀ i, Arrivals (decisions i).handOver (decisions (i + 1))) ∧
    (grantedTo .command (busyPort 4) = true ∧ (busyPort 4).working = true ∧
      (busyPort 4).handOver.waitCount = (busyPort 4).handOver.waitCount ∧ (busyPort 4).handOver.mediaWaits = true) := by
  refine ⟨⟨by decide, by decide, by decide, ?_, fun i => ⟨rfl, rfl, fun _ h => h⟩⟩, by decide +kernel⟩
  intro i
  induction i with
  | zero => decide +kernel
  | succ n ih => exact handOver_works _ ih

theorem witness_ALaneRingWritePasses :
    (∀ k ∈ [0, 1, 15],
      (onBus (laneTxn .write k true none) room).tick = TickWork.none ∧
        (onBus (laneTxn .write k true none) room).wordTxn .write = some (laneTxn .write k true none) ∧
        (laneTxn .write k true none).cls = .lane 0) ∧
    StoreSafe (onBus (laneTxn .write 0 true none) { room with store := [(0x10000, 0xB5)] }) ∧
    ((laneTxn .write 0 true none).nextAddr % 128 = 0 ∧ (laneTxn .write 1 true none).nextAddr % 128 ≠ 0 ∧
      (laneTxn .write 15 false none).bound = false ∧ (room.lanes.get 0).binding = some binding41) ∧
    ((lane41.header binding41 slot41 0 ⟨0xB5291500, 0⟩).2 = .stays ∧
      ({ lane41 with alignment := .hunt, good := 1 }.header binding41 slot41 0 ⟨0xB5291500, 0⟩).2 = .locked ∧
      (lane41.header binding41 slot41 0 ⟨0xB5291500, 8#4⟩).2 = .stays ∧
      (lane41.header binding41 slot41 0 ⟨0xB5291500, 1⟩).2 = .lost) := by
  unfold StoreSafe
  decide +kernel

/-- The header word of a CONTROL cell of service 41, with its verdict byte masked. -/
def controlHeader : WriteWord := ⟨0xB5294600, 8⟩

theorem witness_AHeaderWriteMovesTheLane :
    (lane41.alignment = .locked ∧ lane41.bad = 2 ∧ { lane41 with bad := 1 }.bad = 1 ∧ { lane41 with bad := 0 }.bad = 0 ∧
      { lane41 with alignment := .hunt }.good = 0 ∧ { lane41 with alignment := .hunt, good := 1 }.good = 1) ∧
    (controlHeader.masked 0 = false ∧ controlHeader.masked 1 = false ∧ controlHeader.masked 2 = false ∧
      byteOf controlHeader.data 0 = 0xB5 ∧ byteOf controlHeader.data 1 = binding41.service ∧
      headerKind (byteOf controlHeader.data 2) = .control) ∧
    headerKind (byteOf 0xB5291500 2) ≠ .control ∧ byteOf 0xB4291500 0 ≠ 0xB5 := by
  decide +kernel

/-- The main lane with a notice assembly open for slot 0 that lacks words 0 and 30, or word 30 only. -/
def assembling (first : Option Word) : State :=
  { room with lanes := ⟨{ lane41 with assembly := some ⟨0, first :: List.replicate 29 (some 0) ++ [none]⟩ }, Lane.unbound,
      Lane.unbound, Lane.unbound⟩ }

theorem witness_APayloadWordFeedsTheAssembly :
    ((room.lanes.get 0).assembly = none ∧ (room.lanes.get 1).binding = none) ∧
    (((assembling none).lanes.get 0).binding = some binding41 ∧
      ((assembling none).lanes.get 0).assembly = some ⟨0, none :: List.replicate 29 (some 0) ++ [none]⟩ ∧
      ((assembling (some 1)).lanes.get 0).binding = some binding41 ∧
      ((assembling (some 1)).lanes.get 0).assembly = some ⟨0, some 1 :: List.replicate 29 (some 0) ++ [none]⟩) ∧
    (0 = binding41.slotAt 0x1007C ∧ (WriteWord.mk 9 0).whole = true ∧
      none ∈ ((none : Option Word) :: List.replicate 29 (some 0) ++ [none]).set (payloadIndex 0x1007C) (some 9) ∧
      (some (1 : Word) :: List.replicate 29 (some 0) ++ [none]).set (payloadIndex 0x1007C) (some 9) =
        ((1 : Word) :: List.replicate 29 0 ++ [9]).map some) ∧
    (0 ≠ binding41.slotAt 0x10080 ∧ (WriteWord.mk 9 1).whole = false) := by
  decide +kernel

/-- A TITLE notice of title 6,100 and a WORD notice of word 301 with sound CRCs, without their padding. -/
def titlePayload : List Byte :=
  let body : List Byte := [1, 8, 0x17, 0xD4, 2, 0x05, 0x0F, 0x01, 0x2C, 24]
  body ++ halfBytes (noticeCrc body)

/-- See titlePayload. -/
def wordPayload : List Byte :=
  let body : List Byte := [2, 18, 0x01, 0x2D] ++ List.replicate 16 0x55
  body ++ halfBytes (noticeCrc body)

theorem witness_NoticesAreTestedAndWordsRotate :
    (noticeByte [3, 8] 0 ≠ 1 ∧ noticeByte [3, 8] 0 ≠ 2 ∧ 120 < (noticeByte [1, 121] 1).toNat ∧
      (noticeByte [1, 9] 0 = 1 ∧ (noticeByte [1, 9] 1).toNat ≠ 8) ∧ (noticeByte [2, 17] 0 = 2 ∧ (noticeByte [2, 17] 1).toNat ≠ 18) ∧
      noticeHalf (1 :: 8 :: zeros 122) 10 ≠ noticeCrc ((1 :: 8 :: zeros 122).take 10)) ∧
    (room.slotIndex 41 = some 0 ∧ room.slots.get 0 = some slot41 ∧ noticeByte titlePayload 0 = 1 ∧
      (noticeByte titlePayload 1).toNat = 8 ∧ noticeHalf titlePayload 10 = noticeCrc (titlePayload.take 10)) ∧
    (noticeByte wordPayload 0 = 2 ∧ (noticeByte wordPayload 1).toNat = 18 ∧
      noticeHalf wordPayload 20 = noticeCrc (wordPayload.take 20)) ∧
    (slot41.current.valid = true ∧ slot41.current.number = 300 ∧ slot41.current.number ≠ 301) := by
  decide +kernel

/-- The fields of a TITLE notice that are clamped, with the others at 0. -/
def clampCase (rating limitHigh limitLow hours : Byte) : List Byte := [1, 8, 0, 1, rating, 0, 0, limitHigh, limitLow, hours]

theorem witness_ATitleNoticeIsReadClamped :
    ((noticeByte (clampCase 7 3 0x84 0) 4).toNat ≤ 7 ∧ (noticeHalf (clampCase 7 3 0x84 0) 7).toNat ≤ 900 ∧
      (noticeByte (clampCase 7 3 0x84 0) 9).toNat = 0) ∧
    (7 < (noticeByte (clampCase 8 3 0x85 1) 4).toNat ∧ 900 < (noticeHalf (clampCase 8 3 0x85 1) 7).toNat ∧
      1 ≤ (noticeByte (clampCase 8 3 0x85 1) 9).toNat ∧ (noticeByte (clampCase 8 3 0x85 72) 9).toNat ≤ 72 ∧
      72 < (noticeByte (clampCase 8 3 0x85 73) 9).toNat) := by
  decide +kernel

/-- The terms of a title not in the room's table. -/
def newTerms : TitleTerms := ⟨9000, 1, 500, 0, 24⟩

/-- A full table of entries numbered 100 to 131, all in one state. -/
def fullTable (st : TitleState) (refused : List (BitVec 16)) : State :=
  { room with titles := (List.range 32).map (fun i => { film with number := BitVec.ofNat 16 (100 + i), state := st })
              refused := refused }

/-- The full table as it stands once the slot names the new title. -/
def named (st : TitleState) (refused : List (BitVec 16)) : State :=
  (fullTable st refused).setSlot 0 (some { slot41 with title := newTerms.number })

theorem witness_TitleSafe : TitleSafe room := by
  refine ⟨by decide, by decide, ?_⟩
  intro e h
  simp only [room, List.mem_cons, List.not_mem_nil, or_false] at h
  rcases h with rfl | rfl <;> simp [TitleEntry.fits, film, room]

theorem witness_ATitleNoticeSetsTheTitle :
    (room.slots.get 0 = some slot41 ∧ ({ newTerms with number := 0 } : TitleTerms).number = 0) ∧
    ((({ newTerms with number := 6100 } : TitleTerms).number ≠ 0 ∧ room.title? 6100 = some film) ∧ TitleSafe room) ∧
    (newTerms.number ≠ 0 ∧ room.title? newTerms.number = none ∧ room.titles.length < 32) ∧
    ((fullTable .offered []).slots.get 0 = some slot41 ∧ (fullTable .offered []).title? newTerms.number = none ∧
      32 ≤ (fullTable .offered []).titles.length ∧ (named .offered []).victim = some { film with number := 100 }) ∧
    ((fullTable .exhausted [9000]).title? newTerms.number = none ∧ 32 ≤ (fullTable .exhausted [9000]).titles.length ∧
      (named .exhausted [9000]).victim = none ∧ (fullTable .exhausted [9000]).refused.contains newTerms.number = true ∧
      (named .exhausted []).victim = none ∧ (fullTable .exhausted []).refused.contains newTerms.number = false) :=
  ⟨by decide +kernel, ⟨by decide +kernel, witness_TitleSafe⟩, by decide +kernel, by decide +kernel, by decide +kernel⟩

theorem witness_EvictionTakesTheLeastRecentCandidate :
    (named .offered []).victim = some { film with number := 100 } ∧ (named .exhausted []).victim = none ∧ newTerms.limit = 0 ∧ room.stay.state ≠ .vacant ∧
      State.reset.stay.state = .vacant ∧ 1 ≤ { newTerms with limit := 1 }.limit := by
  decide +kernel

theorem witness_TheKeystreamFollowsItsFourStages : 30 ≤ 30 ∧ 3 ≤ 3 := by decide

theorem witness_ThePairIsChosenByEpoch :
    { pictureEntry with keyed := false }.keyed = false ∧
    (pictureEntry.keyed = true ∧ pictureEntry.epoch = slot41.epoch ∧ slot41.current.valid = true) ∧
    (¬ (pictureEntry.epoch = { slot41 with epoch := 10 }.epoch ∧ slot41.current.valid = true) ∧
      pictureEntry.epoch = { slot41 with epoch := 10 }.epoch - 1 ∧ slot41.previous.valid = true) ∧
    (¬ (pictureEntry.epoch = { slot41 with epoch := 11 }.epoch ∧ slot41.current.valid = true) ∧
      ¬ (pictureEntry.epoch = { slot41 with epoch := 11 }.epoch - 1 ∧ slot41.previous.valid = true)) := by
  decide +kernel

/-- The lock unit's ranges hold in the room. -/
theorem witness_LockSafe : LockSafe room := by
  simp [LockSafe, room, State.reset]

theorem witness_TheEffectiveCeilingFollowsTheStay :
    (State.reset.stay.state ≠ .occupied ∧ room.stay.state = .occupied ∧ room.lock.lift = 0 ∧
      0 < { room.lock with lift := 1 }.lift) ∧ LockSafe room :=
  ⟨by decide, witness_LockSafe⟩

/-- An entry of a kind. -/
def entryOf (k : Kind) (sc : Scramble) : Entry := { pictureEntry with kind := k, scramble := sc }

theorem witness_VerdictsFollowTheOrderOfTests :
    (Entry.fresh.state = .empty ∧ pictureEntry.state ≠ .empty ∧ (entryOf .bad .clear).kind = .bad ∧
      (entryOf .control .clear).kind = .control ∧ (entryOf .filler .clear).kind = .filler) ∧
    (room.effectiveCeiling < { pictureEntry with rating := 5 }.rating ∧ pictureEntry.rating ≤ room.effectiveCeiling) ∧
    (pictureEntry.pay = true ∧ State.reset.stay.state ≠ .occupied ∧ room.title? 9000 = none ∧
      TitleEntry.shut { film with state := .exhausted } = true) ∧
    (choosePair { pictureEntry with keyed := false } (room.slotOf 41) = .nokey ∧
      choosePair { pictureEntry with epoch := 7 } (room.slotOf 41) = .stale ∧
      choosePair pictureEntry (room.slotOf 41) = .pair slot41.current ∧ (entryOf .picture .odd).scramble = .odd ∧
      (entryOf .picture .clear).scramble = .clear ∧ pictureEntry.scramble = .even ∧
      room.title? pictureEntry.title = some film ∧ film.shut = false ∧ room.stay.state = .occupied) ∧
    (room.judge binding41 pictureEntry true).treatment ≠ .zeros := by
  decide +kernel

theorem witness_VerdictFlagsAndTheVerdictByte :
    pictureEntry.state ≠ .empty ∧ (room.judge binding41 pictureEntry true).mark = some (6100, .main) := by decide +kernel

/-- The judgement of the picture cell's first read. -/
def firstJudgement : Judgement := room.judge binding41 pictureEntry true

theorem witness_ALaneReadWordIsPresented :
    (∀ k ∈ [0, 1, 15],
      (onBus (laneTxn .read k true (some firstJudgement)) room).tick = TickWork.none ∧
        (onBus (laneTxn .read k true (some firstJudgement)) room).wordTxn .read =
          some (laneTxn .read k true (some firstJudgement)) ∧
        (laneTxn .read k true (some firstJudgement)).cls = .lane 0) ∧
    (laneTxn .read 2 false none).judged = none ∧ (laneTxn .read 0 true (some firstJudgement)).nextAddr % 128 = 0 ∧
    ((laneTxn .read 1 true (some firstJudgement)).nextAddr % 128 ≠ 0 ∧ firstJudgement.firstRead = true ∧
      { firstJudgement with firstRead := false }.firstRead = false ∧ (room.lanes.get 0).binding = some binding41) := by
  decide +kernel

/-- The room with an open command ring whose tail is ahead of its head, and a report ring. -/
def ringed (reports : Nat) (reportTail : Word) : State :=
  { room with
    commandRing := .inForce 0x1000 16 15, reportRing := .inForce 0x2000 4 0
    anchor := ⟨0, 0, 16, 0, 0, reportTail⟩, reports := List.replicate reports ⟨.event .lockoutEnded, false⟩ }

theorem witness_AFetchBeginsUnderItsFiveConditions :
    ((ringed 8 0).tick = TickWork.none ∧ (ringed 8 0).working = true ∧ (ringed 8 0).commandRing = .inForce 0x1000 16 15 ∧
      15 ≠ (ringed 8 0).anchor.commandTail.toNat % 16 ∧ (ringed 8 0).fetch = none ∧ (ringed 8 0).reports.length ≤ 8 ∧
      (ringed 8 0).reportRingFull = false ∧ (ringed 8 0).port = .free ∧ (houseHolds .log false (ringed 8 0)).port ≠ .free) ∧
    (room.commandRing.isOpen = false ∧ { ringed 8 0 with fetch := some 15 }.fetch.isSome = true ∧
      8 < (ringed 9 0).reports.length ∧ (ringed 8 1).reportRingFull = true) := by
  decide +kernel

theorem witness_AFetchFinishesAndQueuesItsReport :
    (ringed 8 0).commandRing = .inForce 0x1000 16 15 ∧ (ringed 15 0).reports.length < 16 ∧ 16 ≤ (ringed 16 0).reports.length ∧
      (ringed 8 0).working = true ∧ (ringed 8 0).requests.any = false ∧ (ringed 8 0).mediaWaits = false ∧
      (fetching (.stayQuery 1) room).fetchReady (.stayQuery 1) = true ∧
      (fetching (.stayQuery 1) room).fetchReady (.stayQuery 2) = false := by
  decide +kernel

/-- The room in a stay state. -/
def roomIn (y : StayState) : State := { room with stay := { room.stay with state := y } }

/-- The room with other items of the lock unit. -/
def roomLock (tries lockout lift : Nat) : State := { room with lock := ⟨some [1, 2, 3, 4], tries, lockout, lift⟩ }

theorem witness_QueriesSiteKeyAndUnknownComplete :
    (fetching (.siteKey 1 5) room).takes (.siteKey 1 5) ∧ (fetching (.stayQuery 1) room).takes (.stayQuery 1) ∧
      (fetching (.unknown 1 0x12) room).takes (.unknown 1 0x12) ∧
      ((fetching (.queryTitle 1 0) room).takes (.queryTitle 1 0) ∧ room.title? 9000 = none) ∧
      ((fetching (.queryTitle 1 7700) room).takes (.queryTitle 1 7700) ∧
        ((fetching (.queryTitle 1 7700) room).title? 7700).map TitleEntry.state = some (.purchased 40 1) ∧
        room.title? 6100 = some film ∧ film.state = .offered) := by
  unfold State.takes
  decide +kernel

theorem witness_TariffReplacesTheTariff :
    (fetching (.tariff 1 3001 7 8 8 0) State.reset).takes (.tariff 1 3001 7 8 8 0) ∧
      (fetching (.tariff 1 3000 8 0 8 240) State.reset).takes (.tariff 1 3000 8 0 8 240) ∧
      (fetching (.tariff 1 3000 7 0 9 241) room).takes (.tariff 1 3000 7 0 9 241) ∧ 7 < (8 : Byte).toNat ∧
      8 < (9 : Byte).toNat ∧ (7 : Byte).toNat ≤ 7 ∧ (8 : Byte).toNat ≤ 8 ∧ State.reset.stay.state = .vacant ∧
      room.stay.state ≠ .vacant := by
  unfold State.takes
  decide +kernel

theorem witness_OpenStayOpensTheStay :
    (fetching (.openStay 1 7 255 0xFFFFFFFF 91 pin) State.reset).takes (.openStay 1 7 255 0xFFFFFFFF 91 pin) ∧
      (fetching (.openStay 1 0 4 1 0 pin) room).takes (.openStay 1 0 4 1 0 pin) ∧ (7 : Word) ≠ 0 ∧
      pinWellFormed pin = true ∧ pinWellFormed { pin with length := 3 } = false ∧ pinWellFormed { pin with d3 := 10 } = false ∧
      State.reset.stay.state = .vacant ∧ room.stay.state ≠ .vacant := by
  unfold State.takes
  decide +kernel

theorem witness_CloseStayIssuesTheCloseRecord :
    (fetching (.closeStay 1) (roomLock 0 0 1)).takes (.closeStay 1) ∧
      (fetching (.closeStay 1) (roomLock 0 0 1)).stay.state = .occupied ∧ 0 < (fetching (.closeStay 1) (roomLock 0 0 1)).lock.lift ∧
      (fetching (.closeStay 1) room).takes (.closeStay 1) ∧ (fetching (.closeStay 1) room).lock.lift = 0 ∧
      (fetching (.closeStay 1) (roomIn .vacant)).takes (.closeStay 1) ∧
      (fetching (.closeStay 1) (roomIn .closing)).takes (.closeStay 1) := by
  unfold State.takes
  decide +kernel

theorem witness_AckChargesReleasesRecords :
    (fetching (.ackCharges 1 1) room).takes (.ackCharges 1 1) ∧ (fetching (.ackCharges 1 1) room).stay.state ≠ .closing ∧
      (fetching (.ackCharges 1 0) (roomIn .closing)).takes (.ackCharges 1 0) ∧ min 1 (max 0 0) ≠ 1 ∧
      (fetching (.ackCharges 1 1) (roomIn .closing)).takes (.ackCharges 1 1) ∧
      (fetching (.ackCharges 1 1) (roomIn .closing)).stay.state = .closing ∧
      min (roomIn .closing).charges.lastIssued (max (roomIn .closing).charges.acknowledged (1 : Word).toNat) =
        (roomIn .closing).charges.lastIssued := by
  unfold State.takes
  decide +kernel

/-- The room with its log regions replaced. -/
def roomLog (current : Option LogRegion) (staged : Option StagedRegion) : State :=
  { room with charges := { room.charges with current := current, staged := staged } }

/-- The ranges in use leave a range clear. -/
def isClear (s : State) (base slots : Nat) : Prop := ∀ x ∈ s.extents, overlaps (base, slots * 32) x = false

theorem witness_LogRegionAndSetCreditComplete :
    ((fetching (.logRegion 1 0x20000 8) room).takes (.logRegion 1 0x20000 8) ∧
      isClear (fetching (.logRegion 1 0x20000 8) room) 0x20000 8 ∧ room.charges.current.isSome = true ∧
      room.charges.staged = none) ∧
    ((fetching (.logRegion 1 0x20000 4096) (roomLog none none)).takes (.logRegion 1 0x20000 4096) ∧
      isClear (fetching (.logRegion 1 0x20000 4096) (roomLog none none)) 0x20000 4096 ∧
      (roomLog none none).charges.current = none) ∧
    ((fetching (.logRegion 1 0x20000 8) (roomLog (some ⟨0x8000, 8, 0⟩) (some ⟨0x9000, 8⟩))).takes (.logRegion 1 0x20000 8) ∧
      isClear (fetching (.logRegion 1 0x20000 8) (roomLog (some ⟨0x8000, 8, 0⟩) (some ⟨0x9000, 8⟩))) 0x20000 8) ∧
    ((fetching (.logRegion 1 0x20000 7) room).takes (.logRegion 1 0x20000 7) ∧
      (fetching (.logRegion 1 0 8) room).takes (.logRegion 1 0 8) ∧ ¬ isClear (fetching (.logRegion 1 0 8) room) 0 8) ∧
    ((fetching (.setCredit 1 2431) room).takes (.setCredit 1 2431) ∧ room.charges.netTotal + room.charges.taxTotal = 2431 ∧
      (fetching (.setCredit 1 2430) room).takes (.setCredit 1 2430) ∧
      (fetching (.setCredit 1 2430) (roomIn .closing)).takes (.setCredit 1 2430) ∧
      (fetching (.setCredit 1 2430) (roomIn .vacant)).takes (.setCredit 1 2430)) := by
  unfold State.takes isClear
  decide +kernel

/-- A lane of a mosaic window on service 41, and one on a service of its own. -/
def mosaicLane (base : Nat) (service : Byte) : Lane :=
  { lane41 with binding := some ⟨base, 16, service, .mosaic⟩ }

theorem witness_WhatAPurchaseRecordCarries :
    (65535 ≤ 65535 ∧ 90 ≤ 90 ∧ 3000 ≤ 3000) ∧ { room.tariff with discreetClass := 2 }.discreetClass ≤ film.rating ∧
    film.rating < room.tariff.discreetClass ∧
    ((room.lanes.get 0).binding = some binding41 ∧ binding41.role = .main ∧ (four.filter room.laneIsMain).length ≤ 1 ∧
      (room.slotOf binding41.service).title = film.number) ∧
    (let s := { room with lanes := ⟨Lane.unbound, mosaicLane 0x30000 41, mosaicLane 0x40000 41, Lane.unbound⟩ }
     (s.lanes.get 1).binding = some ⟨0x30000, 16, 41, .mosaic⟩ ∧ (s.slotOf 41).title = film.number ∧
      (∀ m, s.laneShows m film.number = true → s.laneIsMain m = false) ∧ ∀ m, m < 1 → s.laneShows m film.number = false) ∧
    (∀ n, State.reset.laneShows n film.number = false) := by
  decide +kernel

/-- The room as a BUY of title 6,100 finds it, by entry, credit limit and last issued sequence number. -/
def buying (e : TitleEntry) (credit lastIssued : Nat) : State :=
  fetching (.buy 1 6100)
    { room with
      titles := [e], stay := { room.stay with credit := credit }, charges := { room.charges with lastIssued := lastIssued } }

theorem witness_BuyCommitsOrNamesTheFailedCheck :
    ((buying film 3693 1).takes (.buy 1 6100) ∧ (buying film 3693 1).stay.state = .occupied ∧
      (buying film 3693 1).title? 6100 = some film ∧ film.bought = false ∧ film.price ≠ 0 ∧
      film.rating ≤ (buying film 3693 1).effectiveCeiling ∧ 2431 + (1166 + 96) ≤ (buying film 3693 1).stay.credit ∧
      ¬ (15 ≤ ((buying film 3693 1).charges.list.filter ChargeItem.isPurchase).length ∨
        2 ^ 32 - 2 ≤ (buying film 3693 1).charges.lastIssued)) ∧
    ((buying film 3692 1).takes (.buy 1 6100) ∧ (buying film 3692 1).stay.credit < 2431 + (1166 + 96) ∧
      (buying film 3693 4294967294).takes (.buy 1 6100) ∧ 2 ^ 32 - 2 ≤ (buying film 3693 4294967294).charges.lastIssued) ∧
    ((buying { film with state := .purchased 1 1 } 0 1).takes (.buy 1 6100) ∧
      TitleEntry.bought { film with state := .purchased 1 1 } = true ∧ (buying { film with price := 0 } 0 1).takes (.buy 1 6100) ∧
      (buying { film with rating := 5 } 0 1).takes (.buy 1 6100) ∧
      (buying { film with rating := 5 } 0 1).effectiveCeiling < { film with rating := 5 }.rating ∧
      (buying { film with number := 1 } 0 1).takes (.buy 1 6100) ∧ (buying { film with number := 1 } 0 1).title? 6100 = none) ∧
    ((fetching (.buy 1 6100) (roomIn .vacant)).takes (.buy 1 6100) ∧
      (fetching (.buy 1 6100) (roomIn .closing)).takes (.buy 1 6100)) := by
  unfold State.takes
  decide +kernel

/-- A BIND of a lane with service 43. -/
def bindOf (lane role service : Byte) (base : Word) (slots : BitVec 16) : Instr := .bind 1 lane role service base slots

/-- The ranges in use leave a lane ring clear. -/
def ringClear (s : State) (base slots : Nat) : Prop := ∀ x ∈ s.extents, overlaps (base, slots * 128) x = false

/-- The room with a second lane that takes a part of the directory. -/
def roomWide (slots : Nat) : State :=
  { room with lanes := ⟨lane41, { lane41 with binding := some ⟨0x100000, slots, 44, .mosaic⟩ }, Lane.unbound, Lane.unbound⟩ }

theorem witness_BindFollowsItsFiveTests :
    (let c := bindOf 3 1 43 0x3FFF800 16
     let s := fetching c (roomWide 1024)
     s.takes c ∧ ringClear s 0x3FFF800 16 ∧ (s.lanes.get 3).binding = none ∧ s.slotIndex 43 = none ∧
      s.freeSlot = some 1 ∧ 16 ≤ s.freeEntries) ∧
    (let c := bindOf 1 1 41 0x20000 1024
     let s := fetching c room
     s.takes c ∧ ringClear s 0x20000 1024 ∧ s.slotIndex 41 = some 0 ∧ s.slots.get 0 = some slot41 ∧
      1024 ≤ s.freeEntries) ∧
    (let c := bindOf 2 1 43 0x40000 1009
     let s := fetching c (roomWide 1024)
     s.takes c ∧ ringClear s 0x40000 1009 ∧ s.freeEntries = 1008) ∧
    (let c := bindOf 2 0 43 0x40000 16
     let s := fetching c room
     s.takes c ∧ ringClear s 0x40000 16 ∧ s.laneIsMain 0 = true) ∧
    (let c := bindOf 0 1 43 0x40000 16
     let s := fetching c room
     s.takes c ∧ (s.lanes.get 0).binding.isSome = true) ∧
    (let c := bindOf 1 1 43 0x10780 16
     let s := fetching c room
     s.takes c ∧ ¬ ringClear s 0x10780 16) ∧
    (fetching (bindOf 4 1 43 0x40000 16) room).takes (bindOf 4 1 43 0x40000 16) ∧
    (fetching (bindOf 1 2 43 0x40000 16) room).takes (bindOf 1 2 43 0x40000 16) := by
  unfold State.takes ringClear
  decide +kernel

theorem witness_UnbindFreesTheLane :
    ((fetching (.unbind 1 4) room).takes (.unbind 1 4) ∧ 3 < (4 : Byte).toNat) ∧
    ((fetching (.unbind 1 3) room).takes (.unbind 1 3) ∧ (room.lanes.get 3).binding = none) ∧
    ((fetching (.unbind 1 0) room).takes (.unbind 1 0) ∧ (room.lanes.get 0).binding = some binding41 ∧
      room.slotIndex binding41.service = some 0 ∧ room.slots.get 0 = some slot41 ∧ slot41.refs ≤ 1 ∧
      1 < { slot41 with refs := 2 }.refs) := by
  unfold State.takes
  decide +kernel

theorem witness_UnlockFollowsItsFiveTests :
    (fetching (.unlock 1 pin) room).takes (.unlock 1 pin) ∧ pinWellFormed pin = true ∧ pinWellFormed { pin with length := 9 } = false ∧
      (fetching (.unlock 1 { pin with length := 9 }) room).takes (.unlock 1 { pin with length := 9 }) ∧
      room.lock.pin = some (pin.places.take pin.length.toNat) ∧ room.lock.lockout = 0 ∧
      (fetching (.unlock 1 otherPin) (roomLock 1 0 0)).takes (.unlock 1 otherPin) ∧ (roomLock 1 0 0).lock.tries < 2 ∧
      (fetching (.unlock 1 otherPin) (roomLock 2 0 0)).takes (.unlock 1 otherPin) ∧ 2 ≤ (roomLock 2 0 0).lock.tries ∧
      room.lock.pin ≠ some (otherPin.places.take otherPin.length.toNat) ∧
      (fetching (.unlock 1 pin) (roomLock 0 1 0)).takes (.unlock 1 pin) ∧ 0 < (roomLock 0 1 0).lock.lockout ∧
      (fetching (.unlock 1 pin) (roomIn .vacant)).takes (.unlock 1 pin) ∧
      (fetching (.unlock 1 pin) (roomIn .closing)).takes (.unlock 1 pin) := by
  unfold State.takes
  decide +kernel

theorem witness_SetCeilingNeedsThePinOnlyToRaise :
    ((fetching (.setCeiling 1 8 pin) room).takes (.setCeiling 1 8 pin) ∧ 7 < (8 : Byte).toNat) ∧
    ((fetching (.setCeiling 1 4 { pin with length := 0 }) room).takes (.setCeiling 1 4 { pin with length := 0 }) ∧
      min (4 : Byte).toNat room.tariff.siteClamp ≤ room.stay.ceiling) ∧
    ((fetching (.setCeiling 1 7 pin) room).takes (.setCeiling 1 7 pin) ∧ (7 : Byte).toNat ≤ 7 ∧
      room.stay.ceiling < min (7 : Byte).toNat room.tariff.siteClamp ∧ pinWellFormed pin = true ∧ room.lock.lockout = 0 ∧
      room.lock.pin = some (pin.places.take pin.length.toNat)) ∧
    ((fetching (.setCeiling 1 7 { pin with length := 0 }) room).takes (.setCeiling 1 7 { pin with length := 0 }) ∧
      pinWellFormed { pin with length := 0 } = false ∧ (fetching (.setCeiling 1 7 otherPin) room).takes (.setCeiling 1 7 otherPin) ∧
      (fetching (.setCeiling 1 7 pin) (roomLock 0 1 0)).takes (.setCeiling 1 7 pin)) ∧
    ((fetching (.setCeiling 1 7 pin) (roomIn .vacant)).takes (.setCeiling 1 7 pin) ∧
      (fetching (.setCeiling 1 7 pin) (roomIn .closing)).takes (.setCeiling 1 7 pin)) := by
  unfold State.takes
  decide +kernel

theorem witness_ChangePinAndRelockComplete :
    ((fetching (.changePin 1 pin otherPin) room).takes (.changePin 1 pin otherPin) ∧ pinWellFormed pin = true ∧
      pinWellFormed otherPin = true ∧ (fetching (.changePin 1 otherPin pin) room).takes (.changePin 1 otherPin pin) ∧
      (fetching (.changePin 1 pin { pin with d0 := 10 }) room).takes (.changePin 1 pin { pin with d0 := 10 }) ∧
      pinWellFormed { pin with d0 := 10 } = false ∧
      (fetching (.changePin 1 pin otherPin) (roomLock 0 900 0)).takes (.changePin 1 pin otherPin) ∧
      (fetching (.changePin 1 pin otherPin) (roomIn .vacant)).takes (.changePin 1 pin otherPin) ∧
      (fetching (.changePin 1 pin otherPin) (roomIn .closing)).takes (.changePin 1 pin otherPin)) ∧
    ((fetching (.relock 1) (roomLock 0 0 1)).takes (.relock 1) ∧ (fetching (.relock 1) room).takes (.relock 1) ∧
      (fetching (.relock 1) (roomIn .vacant)).takes (.relock 1) ∧ (fetching (.relock 1) (roomIn .closing)).takes (.relock 1)) := by
  unfold State.takes
  decide +kernel

theorem witness_ARestartClearsVolatileState :
    (fetching (.restart 1) room).takes (.restart 1) ∧ (fetching (.restart 1) room).mediaWaits = false ∧
      (fetching (.restart 1) (busyPort 0)).takes (.restart 1) ∧ (fetching (.restart 1) (busyPort 0)).mediaWaits = true ∧
      (onBus (heldTxn true) room).media = some (heldTxn true) := by
  unfold State.takes
  decide +kernel

theorem witness_CommandRecordsAreReadBackWhole :
    wellFormed (.buy 1 6100) = true ∧ encodeRecord (.buy 1 6100) = some ([0, 0, 0, 1, 9, 0, 0, 0, 0x17, 0xD4] ++ zeros 22) ∧
      (let other : List Byte := [0, 0, 0, 1, 9, 1, 2, 3, 0x17, 0xD4] ++ List.replicate 22 0xFF
       ∀ k, k < 5 ∨ 8 ≤ k ∧ k < 8 + 2 ∧ ¬ (9 = 0x0A ∧ k = 11) →
         other.getD k 0 = ([0, 0, 0, 1, 9, 0, 0, 0, 0x17, 0xD4] ++ zeros 22).getD k 0) := by
  refine ⟨by decide +kernel, by decide +kernel, fun k named => ?_⟩
  have hk : k ∈ [0, 1, 2, 3, 4, 8, 9] := by simp only [List.mem_cons, List.not_mem_nil]; omega
  clear named
  revert k
  decide +kernel

theorem witness_AReportIsTakenFromTheQueue :
    ((ringed 2 0).tick = TickWork.none ∧ (ringed 2 0).working = true ∧ (ringed 2 0).reportWrite = none ∧
      (ringed 2 0).reports = [⟨.event .lockoutEnded, false⟩, ⟨.event .lockoutEnded, false⟩] ∧
      (ringed 2 0).reportRing = .inForce 0x2000 4 0 ∧ (ringed 2 0).reportRingFull = false ∧ (ringed 2 0).port = .free ∧
      (houseHolds .log false (ringed 2 0)).port ≠ .free) ∧
    ((ringed 2 1).reportRingFull = true ∧ { ringed 2 0 with reportRing := .closed }.reportRing.isOpen = false) := by
  decide +kernel

/-- A report write that holds the store port. -/
def reporting : State :=
  { houseHolds .report false (ringed 2 0) with
    reportRing := .inForce 0x2000 4 3, reportWrite := some ⟨⟨.event (.liftEnded .restart), false⟩, 0x80E0, false⟩ }

theorem witness_AReportWriteCompletes :
    reporting.tick = TickWork.none ∧ reporting.working = true ∧ reporting.port = .house .report 0x80E0 (List.replicate 8 7) false ∧
      reporting.reportWrite = some ⟨⟨.event (.liftEnded .restart), false⟩, 0x80E0, false⟩ ∧
      reporting.reportRing = .inForce 0x2000 4 3 ∧ StoreSafe reporting ∧
      (let written := { reporting with port := .house .report 0x80E0 (reportWords ⟨.event (.liftEnded .restart), false⟩) false }
       written.port = .house .report 0x80E0 (reportWords ⟨.event (.liftEnded .restart), false⟩) false ∧ StoreSafe written) := by
  unfold StoreSafe
  decide +kernel

/-- A LOG write of a record that holds the store port, with the region's last slot being written. -/
def logging (staged : Option StagedRegion) (index : Nat) : State :=
  { houseHolds .log false room with
    charges := { room.charges with
      current := some ⟨0x8000, 8, index⟩, staged := staged
      write := some ⟨⟨1, 7, 40, 2431, .purchase false 7700 41 2246 185⟩, 0x80E0, true⟩ } }

theorem witness_ALogWriteBeginsAndCompletes :
    (room.tick = TickWork.none ∧ room.working = true ∧ room.charges.current = some ⟨0x8000, 8, 7⟩ ∧ room.charges.write = none ∧
      room.charges.list = [] ++ ⟨⟨1, 7, 40, 2431, .purchase false 7700 41 2246 185⟩, false⟩ :: [] ∧ room.port = .free ∧
      (houseHolds .report false room).port ≠ .free) ∧
    ((logging none 7).tick = TickWork.none ∧ (logging none 7).working = true ∧
      (logging none 7).port = .house .log 0x80E0 (List.replicate 8 7) false ∧ (logging none 7).charges.write.isSome = true ∧
      (logging none 7).charges.current = some ⟨0x8000, 8, 7⟩ ∧ (logging none 7).charges.staged = none ∧
      (logging (some ⟨0x9000, 8⟩) 7).charges.staged = some ⟨0x9000, 8⟩ ∧
      (logging none 6).charges.current = some ⟨0x8000, 8, 6⟩ ∧ 7 + 1 = 8 ∧ 6 + 1 ≠ 8) ∧
    (let record : ChargeRecord := ⟨1, 7, 40, 2431, .purchase false 7700 41 2246 185⟩
     let written := { logging none 7 with port := .house .log 0x80E0 (chargeWords record) false }
     StoreSafe (logging none 7) ∧ written.port = .house .log 0x80E0 (chargeWords record) false ∧ StoreSafe written) := by
  unfold StoreSafe
  decide +kernel

theorem witness_AnOrphanChangesNothingButTheStore :
    (houseHolds .report true room).tick = TickWork.none ∧ (houseHolds .report true room).inRun = true ∧
      (houseHolds .report true room).port = .house .report 0x80E0 (List.replicate 8 7) true ∧
      StoreSafe (houseHolds .report true room) := by
  unfold StoreSafe
  decide +kernel

theorem witness_ASecondsTickAdvancesStayAndMeter :
    ((roomLock 0 1 2).tick = TickWork.none ∧ (roomLock 0 1 2).working = true ∧ (roomLock 0 1 2).lock.lift ≠ 1 ∧
      (roomLock 0 1 2).lock.lockout = 1 ∧ (roomLock 0 2 1).lock.lift = 1 ∧ (roomLock 0 2 1).lock.lockout ≠ 1 ∧
      (roomLock 0 2 0).lock.lift ≠ 1 ∧ (roomLock 0 2 0).lock.lockout ≠ 1 ∧ State.reset.stay.state = .vacant ∧
      room.stay.state ≠ .vacant) ∧
    (let u := metering true false
     (u.titles.map TitleEntry.number).Nodup ∧ u.tick.meter = u.titles.reverse.map TitleEntry.number ∧ u.reports.length ≤ 16 ∧
      (u.stay.state = .occupied ∧ film.state = .offered ∧ film.seenMain = true) ∧
      ∀ e ∈ u.titles, e.used + 1 ≠ e.limit ∧
        ∀ second sequence, e.state = .purchased second sequence → u.stay.seconds < second + e.hours * 3600) := by
  refine ⟨by decide +kernel, by decide +kernel, by decide +kernel, by decide +kernel, by decide +kernel, ?_⟩
  intro e h
  simp only [metering, room, List.mem_cons, List.not_mem_nil, or_false] at h
  rcases h with rfl | rfl
  · exact ⟨by decide, fun _ _ h => nomatch h⟩
  · refine ⟨by decide, fun second sequence h => ?_⟩
    injection h with h
    subst h
    decide

theorem witness_APreviewEndsInPurchaseOrExhaustion :
    ((ending lastSecond 5000).tick.meter = 6100 :: [] ∧ (ending lastSecond 5000).title? 6100 = some lastSecond ∧
      (ending lastSecond 5000).stay.state = .occupied ∧ lastSecond.used + 1 = lastSecond.limit ∧ lastSecond.state = .preview ∧
      lastSecond.seenMain = true) ∧
    ({ film with limit := 1 }.used + 1 = 1 ∧ film.state = .offered ∧
      { lastSecond with seenMain := false, seenMosaic := true }.seenMain = false) ∧
    ((ending lastSecond 5000).commitEntryCheck { lastSecond with used := 300 } = none ∧
      (ending lastSecond 3692).commitEntryCheck { lastSecond with used := 300 } = some .credit) ∧
    (let s := { ending lastSecond 5000 with tick := ⟨[7700, 6100], false, false⟩, titles := [lastSecond, { film with number := 7700 }] }
     s.previewEndStep.isSome = true ∧ s.runMeter.previewEndStep.isSome = true ∧ s.runMeter.tick.meter = [6100]) := by
  decide +kernel

theorem witness_TheOtherStepsOfATick :
    (lapsing.tick.meter = 6100 :: [] ∧ lapsing.title? 6100 = some { film with state := .purchased 40 1, seenMain := false } ∧
      lapsing.stay.state ≠ .vacant ∧ 40 + film.hours * 3600 ≤ lapsing.stay.seconds ∧
      (lapsing.titles.map TitleEntry.number).Nodup ∧ lapsing.runMeter.rentalLapsedStep.isSome = true) ∧
    ((ending film 0).tick.lift = true ∧ (ending film 0).tick.lockout = true ∧ room.tick = TickWork.none) := by
  decide +kernel

theorem witness_SuppliesAreSampled :
    (supplied (.run 30)).tick = TickWork.none ∧ (supplied (.run 31)).supply = .run 31 ∧ (supplied (.run 30)).supply = .run 30 ∧
      (supplied .retain).supply = .retain ∧ (supplied (.recover 4095)).supply = .recover 4095 ∧
      (supplied (.recover 4094)).supply = .recover 4094 ∧ 2849 < 2850 ∧ 2850 ≤ 3050 ∧ 3050 < 3051 := by
  decide +kernel

/-- A plain write of 16 words of which 3 have passed. -/
def cutWrite : MediaTxn := ⟨.write, 0x2000, 16, 3, .plain, .data, false, none⟩

/-- R158: a plain write cut after two more words has stored those two, and is held at its next word. -/
theorem test_cut_write :
    leaves (.enterRetain [⟨0x01020304, 0⟩, ⟨5, 0⟩]) (onBus cutWrite (supplied (.run 31)))
      (fun t => t.media == some { cutWrite with phase := .held, passed := 5 } &&
        t.store == [(0x200C, 1), (0x200D, 2), (0x200E, 3), (0x200F, 4), (0x2013, 5)]) = true := by decide +kernel

theorem witness_EnteringRetainSealsTheRetainedStore :
    ((supplied (.run 31)).tick = TickWork.none ∧ (supplied (.run 31)).supply = .run 31 ∧ (supplied (.run 31)).port = .free ∧
      (supplied (.run 31)).media.map MediaTxn.phase ≠ some .data) ∧
    ((houseHolds .log false (supplied (.run 31))).port = .house .log 0x80E0 (List.replicate 8 7) false ∧
      (houseHolds .log false (supplied (.run 31))).media.map MediaTxn.phase ≠ some .data) ∧
    ((onBus (laneTxn .write 3 true none) (supplied (.run 31))).port = .media ∧
      (onBus (laneTxn .write 3 true none) (supplied (.run 31))).media = some (laneTxn .write 3 true none) ∧
      (laneTxn .write 3 true none).phase = .data ∧ (laneTxn .write 3 true none).wordByWord = true) ∧
    (cutWrite.phase = .data ∧ cutWrite.wordByWord = false ∧ cutWrite.dir = .write ∧ 3 + min 2 cutWrite.left < cutWrite.count ∧
      cutWrite.count ≤ 3 + min 13 cutWrite.left ∧ (laneTxn .write 16 true none).count ≤ (laneTxn .write 16 true none).passed ∧
      (busyPort 0).media.map MediaTxn.phase = some .waiting) := by
  decide +kernel

/-- The contents of the room's retained store with three bits of the site key changed. -/
def altered : Retained := { room.retained with siteKey := 5 }

/-- The room outside RUN with a check word that agrees with its retained store. -/
def sealed (x : SupplyState) : State := { supplied x with checkWord := some room.computeCheck }

/-- The check word of a sealed room holds. -/
theorem sealed_checkHolds (x : SupplyState) : (sealed x).checkHolds = true := decide_eq_true rfl

theorem witness_EnteringRunComparesTheCheckWord :
    ((sealed (.recover 4095)).tick = TickWork.none ∧ (sealed (.recover 4095)).supply = .recover 4095 ∧
      (sealed (.recover 4095)).checkWord = some (cyclicCheck (sealed (.recover 4095)).retained.bits) ∧
      (supplied (.recover 4095)).checkWord ≠ some (cyclicCheck (supplied (.recover 4095)).retained.bits)) ∧
    ((sealed .retain).tick = TickWork.none ∧ (sealed .retain).inRun = false ∧ room.inRun = true ∧
      (sealed .retain).checkHolds = true ∧ altered.inWidth = true ∧
      { altered with lastIssued := 2 ^ 32 }.inWidth = false) ∧
    (let before := List.replicate 61 false
     let after := room.retained.bits.drop 64
     (sealed .retain).retained.bits = before ++ [false, false, false] ++ after ∧
      altered.bits = before ++ [true, false, true] ++ after) :=
  ⟨⟨rfl, rfl, rfl, fun h => Option.some_ne_none _ h.symm⟩, ⟨rfl, rfl, rfl, sealed_checkHolds _, by decide +kernel, by decide +kernel⟩,
    by decide +kernel⟩

/-- A decay may leave other contents in the retained store (R157); in RUN the store is fed and keeps its own. -/
theorem test_decay :
    ((sealed .retain).decay altered).retained = altered ∧ ((sealed .retain).decay altered).siteKey = 5 ∧
      leaves .retainedStoreDecay room (fun t => t.siteKey == 0) = true := by decide +kernel

theorem witness_TheResetLineHoldsAndRestarts :
    (room.tick = TickWork.none ∧ room.resetLine = false ∧ room.inRun = true ∧ (supplied .retain).resetLine = false ∧
      (supplied .retain).inRun = false) ∧
    ({ room with resetLine := true }.resetLine = true ∧ { room with resetLine := true }.inRun = true ∧
      { supplied .retain with resetLine := true }.inRun = false) ∧
    ((onBus (laneTxn .write 3 true none) room).port = .media ∧ room.port = .free ∧
      (houseHolds .report false room).port = .house .report 0x80E0 (List.replicate 8 7) false ∧
      (onBus (laneTxn .write 3 true none) room).media = some (laneTxn .write 3 true none) ∧ room.media = none) ∧
    ((onBus cutWrite room).media = some cutWrite ∧ cutWrite.phase = .data ∧ cutWrite.wordByWord = false ∧ cutWrite.dir = .write ∧
      3 + min 2 cutWrite.left < cutWrite.count ∧ cutWrite.count ≤ 3 + min 13 cutWrite.left) ∧
    ((supplied .retain).inRun = false ∧ { ringed 2 0 with resetLine := true }.resetLine = true ∧
      { ringed 2 0 with resetLine := true }.tick = TickWork.none ∧ (recordFields (.stayQuery 1)).isSome = true) := by
  decide +kernel

theorem witness_TheCheckWordDetectsShortChanges :
    (room.retained.inWidth = true ∧ (sealed .retain).retained.inWidth = true ∧
      room.retained.bits = (sealed .retain).retained.bits) ∧
    ((List.replicate 32 true).length = (List.replicate 32 false).length ∧ (List.replicate 32 true).length ≤ 32 ∧
      List.replicate 32 true ≠ List.replicate 32 false) := by
  decide +kernel

/-! ### The invariants hold in a state in use, from which a step is taken -/

/-- The room with a LOG write holding the store port and a report ring whose attention line stands. -/
def inUse : State :=
  { logging none 7 with
    store := [(0x8000, 1)], attention := true, reportRing := .inForce 0x2000 4 1
    media := some ⟨.read, 0x100, 1, 0, .plain, .waiting, false, none⟩, nextPhase := some ⟨.read, 0x140, 16⟩
    requests := ⟨false, true, false⟩
    reportWrite := some ⟨⟨.event .lockoutEnded, false⟩, 0x2020, false⟩, waitCount := 4, pending := [.logWriteComplete] }

theorem witness_StepTakesTheFrontCommand : step inUse = exec .logWriteComplete { inUse with pending := [] } := rfl

theorem witness_inUse_steps : ∃ t, step inUse = .next t ∧ t.trusts := ⟨_, rfl, .inl rfl⟩

/-- The supply watch's items are safe in the state in use, where the part stands by its retained items and no decay waits. -/
theorem witness_KeptWhereTrusted : SupplySafe inUse ∧ DecayCaught inUse ∧ inUse.trusts :=
  ⟨⟨by decide, rfl⟩, fun _ h => absurd (congrArg List.head? h) (by simp [inUse]), .inl rfl⟩

theorem witness_StepsKeepStoreArbiterAndQueues :
    StoreSafe inUse ∧ PortSafe inUse ∧ ArbiterSafe inUse ∧ AttentionSafe inUse ∧ QueueSafe inUse := by
  refine ⟨by simp only [StoreSafe]; decide, by simp only [PortSafe]; decide +kernel, ⟨by decide, by decide, by decide, ?_, by decide +kernel⟩,
    by simp only [AttentionSafe]; decide +kernel, by simp only [QueueSafe]; decide⟩
  intro a
  cases a <;> decide +kernel

theorem witness_StepsKeepChargesAndCredit : ChargeListSafe inUse ∧ CreditSafe inUse := by
  refine ⟨⟨by decide, by decide, ⟨by decide, by decide, by decide⟩, by decide, ?_⟩, fun _ => by decide⟩
  intro w h _
  injection h with h
  subst h
  decide +kernel

theorem witness_StepsKeepLockAndTitles : LockSafe inUse ∧ TitleSafe inUse := ⟨witness_LockSafe, witness_TitleSafe⟩

theorem witness_StepsKeepLanesSlotsAndRanges : LaneSafe inUse ∧ SlotSafe inUse ∧ GeometrySafe inUse := by
  refine ⟨witness_LaneSafe, ⟨?_, ?_, ?_⟩, ⟨by decide +kernel, by decide +kernel⟩⟩
  · intro i j v w h1 h2 _
    match i, j with
    | 0, 0 => rfl
    | 1, _ => exact absurd h1 (by simp [inUse, logging, houseHolds, room, Four.get])
    | 2, _ => exact absurd h1 (by simp [inUse, logging, houseHolds, room, Four.get])
    | 3, _ => exact absurd h1 (by simp [inUse, logging, houseHolds, room, Four.get])
    | 0, 1 => exact absurd h2 (by simp [inUse, logging, houseHolds, room, Four.get])
    | 0, 2 => exact absurd h2 (by simp [inUse, logging, houseHolds, room, Four.get])
    | 0, 3 => exact absurd h2 (by simp [inUse, logging, houseHolds, room, Four.get])
  · intro i v h
    match i with
    | 0 =>
      injection h with h
      subst h
      decide +kernel
    | 1 => exact absurd h (by simp [inUse, logging, houseHolds, room, Four.get])
    | 2 => exact absurd h (by simp [inUse, logging, houseHolds, room, Four.get])
    | 3 => exact absurd h (by simp [inUse, logging, houseHolds, room, Four.get])
  · intro n b h
    match n with
    | 0 =>
      injection h with h
      subst h
      decide +kernel
    | 1 => exact absurd h (by simp [inUse, logging, houseHolds, room, Four.get, Lane.unbound])
    | 2 => exact absurd h (by simp [inUse, logging, houseHolds, room, Four.get, Lane.unbound])
    | 3 => exact absurd h (by simp [inUse, logging, houseHolds, room, Four.get, Lane.unbound])

/-- The sealed room with a supply sample waiting. -/
def sampling : State := { sealed .retain with pending := [.supplySample 3000] }

theorem witness_StepsKeepTheSealedStore :
    SupplySafe inUse ∧ SupplySafe sampling ∧ sampling.inRun = false ∧
      (∃ t, step sampling = .next t ∧ t.inRun = false) ∧
      (∀ rest, sampling.pending ≠ .retainedStoreDecay :: rest) ∧ (∀ rest, sampling.pending ≠ .powerOn :: rest) :=
  ⟨⟨by decide, rfl⟩, ⟨rfl, rfl⟩, rfl, ⟨_, rfl, rfl⟩,
    fun _ h => absurd (congrArg List.head? h) (by simp [sampling]), fun _ h => absurd (congrArg List.head? h) (by simp [sampling])⟩

end Sys2Proof.Tests
end

section
/-! # What a step can do to the memory path, the lanes and the ranges of the store

The items that the memory path, the arbiter, the attention line, the lanes, the service slots and the ranges of the store rest on
are collected in two views of the state. Every step is then a sequence of moves (`step_moves`): one that touches neither view, one of
the store port and its bursts, one of the lanes and log regions, the open of a ring, or a clearing of the volatile state. -/

namespace Sys2Proof.Machine

open Relation

/-! ## The two views -/

/-- What the memory path and the arbiter rest on (section 1.5, R1, R13, R151). -/
structure PathView where
  store : List Host.Cell
  phase : Option MediaPhase
  behind : Bool
  port : Port
  requests : Requests
  waitCount : Nat
  rotation : List Agent
  fetching : Bool
  reporting : Bool
  logging : Bool
  attention : Bool
  reportRing : Ring
  reportTail : Word
  deriving DecidableEq

/-- The path view of a state. -/
def State.pathView (s : State) : PathView :=
  { store := s.store, phase := s.media.map MediaTxn.phase, behind := s.nextPhase.isSome, port := s.port
    requests := s.requests, waitCount := s.waitCount, rotation := s.rotation
    fetching := s.fetch.isSome, reporting := s.reportWrite.isSome, logging := s.charges.write.isSome
    attention := s.attention, reportRing := s.reportRing, reportTail := s.anchor.reportTail }

/-- What a service slot in use answers for: its service and its reference count (R46, R47). -/
def ServiceSlot.key (v : ServiceSlot) : Byte × Nat := (v.service, v.refs)

/-- The services and reference counts of the four slots. -/
def State.slotKeys (s : State) (i : Fin 4) : Option (Byte × Nat) := (s.slots.get i).map ServiceSlot.key

/-- What the lanes, the service slots and the ranges of the store rest on (R10, R17, R47, R122). -/
structure RangeView where
  lanes : Four Lane
  slotKeys : Fin 4 → Option (Byte × Nat)
  commandRange : List Extent
  reportRange : List Extent
  logRanges : List Extent

/-- The range view of a state. -/
def State.rangeView (s : State) : RangeView :=
  { lanes := s.lanes, slotKeys := s.slotKeys, commandRange := s.commandRing.extents
    reportRange := s.reportRing.extents, logRanges := logExtents s.charges }

/-- The state has changed in nothing that either view shows, and its queues stay within 16. -/
structure Quiet (s t : State) : Prop where
  path : t.pathView = s.pathView
  ranges : t.rangeView = s.rangeView
  queues : QueueSafe s → QueueSafe t

theorem Quiet.refl (s : State) : Quiet s s := ⟨rfl, rfl, id⟩

theorem Quiet.trans {s t u : State} (h : Quiet s t) (k : Quiet t u) : Quiet s u :=
  ⟨k.path.trans h.path, k.ranges.trans h.ranges, fun q => k.queues (h.queues q)⟩

/-- Quiet work after quiet work, the later one named first. -/
theorem Quiet.after {s t u : State} (k : Quiet t u) (h : Quiet s t) : Quiet s u := h.trans k

/-- A choice between two quiet works is quiet. -/
theorem Quiet.ite {p : Prop} [Decidable p] {s t u : State} (h : p → Quiet s t) (k : ¬ p → Quiet s u) :
    Quiet s (if p then t else u) := by
  split
  · exact h ‹_›
  · exact k ‹_›

/-! ## Quiet work of the owners -/

theorem State.hand_quiet (s : State) (b : ReportBody) : Quiet s (s.hand b) := by
  refine ⟨by simp [State.pathView], by simp [State.rangeView, funext_iff, State.slotKeys], fun ⟨hr, hf⟩ => ⟨?_, by simpa⟩⟩
  rcases s.hand_cases b with ⟨hl, h⟩ | ⟨-, h⟩
  · rw [h]
    simpa using hl
  · rwa [h]

theorem State.raiseEvent_quiet (s : State) (e : Event) : Quiet s (s.raiseEvent e) := s.hand_quiet _

theorem State.raiseEvent?_quiet (s : State) (e : Option Event) : Quiet s (s.raiseEvent? e) := by
  cases e with
  | none => exact Quiet.refl s
  | some e => exact s.raiseEvent_quiet e

theorem State.updateTitle_quiet (s : State) (t : BitVec 16) (f : TitleEntry → TitleEntry) : Quiet s (s.updateTitle t f) :=
  ⟨rfl, rfl, id⟩

/-! ### The meter and the tick -/

theorem State.countPreview_quiet (s : State) (e : TitleEntry) : Quiet s (s.countPreview e) :=
  .ite (fun _ => (s.updateTitle_quiet _ _).trans (State.raiseEvent_quiet _ _)) (fun _ => s.updateTitle_quiet _ _)

theorem State.clearSeen_quiet (s : State) (t : BitVec 16) : Quiet s (s.clearSeen t) := s.updateTitle_quiet _ _

theorem State.meterEntry_quiet (s : State) (e : TitleEntry) : Quiet s (s.meterEntry e) :=
  (Quiet.ite (fun _ => s.countPreview_quiet e) (fun _ => .refl s)).trans (State.clearSeen_quiet _ _)

theorem State.meterRun_quiet (ts : List (BitVec 16)) : ∀ s : State, Quiet s (State.meterRun ts s) := by
  induction ts with
  | nil => intro s; exact ⟨rfl, rfl, id⟩
  | cons t rest ih =>
    intro s
    simp only [State.meterRun]
    split
    · exact ih s
    · rename_i e _
      exact .ite (fun _ => ⟨rfl, rfl, id⟩) (fun _ => (s.meterEntry_quiet e).trans (ih _))

theorem State.runMeter_quiet (s : State) : Quiet s s.runMeter := State.meterRun_quiet _ s

theorem State.exhaust_quiet (s : State) (t : BitVec 16) (r : PreviewReason) : Quiet s (s.exhaust t r) :=
  (s.updateTitle_quiet _ _).trans (State.raiseEvent_quiet _ _)

theorem State.makeCommit_quiet (s : State) (e : TitleEntry) (n : Nat) : Quiet s (s.makeCommit e n) := ⟨rfl, rfl, id⟩

theorem State.endPreview_quiet (s : State) (e : TitleEntry) : Quiet s (s.endPreview e) := by
  unfold State.endPreview
  refine .ite (fun _ => ?_) (fun _ => s.exhaust_quiet _ _)
  split
  · exact (s.makeCommit_quiet _ _).trans (State.raiseEvent_quiet _ _)
  · exact s.exhaust_quiet _ _

theorem State.lapse_quiet (s : State) (e : TitleEntry) : Quiet s (s.lapse e) :=
  (s.updateTitle_quiet _ _).trans (State.raiseEvent_quiet _ _)

/-- A step of the meter is quiet if what it does to the entry is. -/
theorem State.meterStep_quiet {s t : State} {acts : State → TitleEntry → Bool} {act : State → TitleEntry → State}
    (hact : ∀ r e, Quiet r (act r e)) (h : s.meterStep acts act = some t) : Quiet s t := by
  obtain ⟨-, rest, e, -, -, -, rfl⟩ := State.meterStep_cases h
  exact (s.runMeter_quiet.trans (hact _ e)).trans ((State.clearSeen_quiet _ _).trans (State.meterRun_quiet rest _))

theorem State.previewEndStep_quiet {s t : State} (h : s.previewEndStep = some t) : Quiet s t :=
  State.meterStep_quiet (fun r e => (r.countPreview_quiet e).trans (State.endPreview_quiet _ e)) h

theorem State.rentalLapsedStep_quiet {s t : State} (h : s.rentalLapsedStep = some t) : Quiet s t :=
  State.meterStep_quiet State.lapse_quiet h

theorem State.liftExpiredStep_quiet {s t : State} (h : s.liftExpiredStep = some t) : Quiet s t := by
  unfold State.liftExpiredStep at h
  split at h
  · obtain rfl := Option.some.inj h
    exact (State.raiseEvent_quiet _ _).after ⟨rfl, rfl, id⟩
  · contradiction

theorem State.lockoutEndedStep_quiet {s t : State} (h : s.lockoutEndedStep = some t) : Quiet s t := by
  unfold State.lockoutEndedStep at h
  split at h
  · obtain rfl := Option.some.inj h
    exact (State.raiseEvent_quiet _ _).after ⟨rfl, rfl, id⟩
  · contradiction

theorem State.finishMeter_quiet (n : Nat) : ∀ s : State, Quiet s (s.finishMeter n) := by
  induction n with
  | zero => intro s; exact ⟨rfl, rfl, id⟩
  | succ n ih =>
    intro s
    simp only [State.finishMeter]
    split
    · rename_i t ht
      exact (State.previewEndStep_quiet ht).trans (ih t)
    · split
      · rename_i t ht
        exact (State.rentalLapsedStep_quiet ht).trans (ih t)
      · exact ⟨rfl, rfl, id⟩

theorem State.settleMeter_quiet (s : State) : Quiet s s.settleMeter :=
  s.runMeter_quiet.trans (State.finishMeter_quiet _ _)

/-- A step that may not be taken is quiet if it is quiet where it is taken. -/
theorem Quiet.getD {s : State} {o : Option State} (h : ∀ t, o = some t → Quiet s t) : Quiet s (o.getD s) := by
  cases o with
  | none => exact .refl s
  | some t => exact h t rfl

theorem State.settleLift_quiet (s : State) : Quiet s s.settleLift := .getD fun _ => State.liftExpiredStep_quiet

theorem State.settleLockout_quiet (s : State) : Quiet s s.settleLockout := .getD fun _ => State.lockoutEndedStep_quiet

theorem State.settleIn_quiet (s : State) (o : TickOrder) : Quiet s (s.settleIn o) := by
  cases o with
  | meterLiftLockout => exact (s.settleMeter_quiet.trans (State.settleLift_quiet _)).trans (State.settleLockout_quiet _)
  | meterLockoutLift => exact (s.settleMeter_quiet.trans (State.settleLockout_quiet _)).trans (State.settleLift_quiet _)
  | liftMeterLockout => exact (s.settleLift_quiet.trans (State.settleMeter_quiet _)).trans (State.settleLockout_quiet _)
  | liftLockoutMeter => exact (s.settleLift_quiet.trans (State.settleLockout_quiet _)).trans (State.settleMeter_quiet _)
  | lockoutMeterLift => exact (s.settleLockout_quiet.trans (State.settleMeter_quiet _)).trans (State.settleLift_quiet _)
  | lockoutLiftMeter => exact (s.settleLockout_quiet.trans (State.settleLift_quiet _)).trans (State.settleMeter_quiet _)

/-- Completing a tick is quiet. -/
theorem State.settle_quiet (s : State) : Quiet s s.settle :=
  .ite (fun _ => .refl s) (fun _ => (State.settleIn_quiet _ _).after ⟨rfl, rfl, id⟩)

theorem State.secondsTickStep_quiet (s : State) : Quiet s s.secondsTickStep := by
  have hb : Quiet s s.beginTick := ⟨rfl, rfl, id⟩
  have hd : Quiet s.beginTick { s.beginTick with freeDraws := s.beginTick.freeDraws + 1 } := ⟨rfl, rfl, id⟩
  exact .ite (fun _ => .ite (fun _ => (hb.trans hd).trans (State.runMeter_quiet _)) (fun _ => hb.trans hd))
    (fun _ => hb.trans (State.runMeter_quiet _))

theorem clockPeriod_quiet (s : State) : Quiet s (clockPeriod s) :=
  .ite
    (fun _ => .ite (fun _ => s.settle_quiet.trans (State.secondsTickStep_quiet _))
      (fun _ => s.settle_quiet.trans ⟨rfl, rfl, id⟩))
    (fun _ => s.settle_quiet)

/-! ### Titles and notices -/

theorem State.applyMark_quiet (s : State) (m : BitVec 16 × Role) : Quiet s (s.applyMark m) := s.updateTitle_quiet _ _

/-- A slot changed in neither its service nor its reference count is changed quietly. -/
theorem State.setSlot_quiet (s : State) (i : Fin 4) (f : ServiceSlot → ServiceSlot) (hf : ∀ v, (f v).key = v.key) :
    Quiet s (s.setSlot i ((s.slots.get i).map f)) := by
  refine ⟨rfl, ?_, id⟩
  have hk : (s.setSlot i ((s.slots.get i).map f)).slotKeys = s.slotKeys := by
    funext j
    by_cases hj : j = i
    · subst hj
      simp [State.slotKeys, Function.comp_def, hf]
    · simp [State.slotKeys, Four.get_set_other _ _ _ _ hj]
  simp [State.rangeView, hk]

theorem State.setSlotTerms_quiet (s : State) (i : Fin 4) (r : Nat) (p : Bool) : Quiet s (s.setSlotTerms i r p) :=
  s.setSlot_quiet i _ (fun _ => rfl)

theorem State.refuse_quiet (s : State) (n : BitVec 16) : Quiet s (s.refuse n) := by
  refine .ite (fun _ => .refl s) (fun _ => (State.raiseEvent_quiet _ _).after ⟨rfl, rfl, fun ⟨hr, hf⟩ => ⟨hr, ?_⟩⟩)
  show ((if s.refused.length < 16 then s.refused else s.refused.drop 1) ++ [n]).length ≤ 16
  split
  · simpa using ‹_›
  · simp
    omega

theorem State.enter_quiet (s : State) (t : TitleTerms) : Quiet s (s.enter t) :=
  ⟨rfl, rfl, fun ⟨hr, hf⟩ => ⟨hr, (List.length_filter_le _ _).trans hf⟩⟩

theorem State.register_quiet (s : State) (t : TitleTerms) : Quiet s (s.register t) := by
  refine .ite (fun _ => s.enter_quiet t) (fun _ => ?_)
  split
  · exact (State.enter_quiet _ t).after ⟨rfl, rfl, id⟩
  · exact s.refuse_quiet _

theorem State.titleNotice_quiet (s : State) (i : Fin 4) (t : TitleTerms) : Quiet s (s.titleNotice i t) := by
  have h1 := s.setSlot_quiet i (fun v => { v with title := t.number }) (fun _ => rfl)
  refine .ite (fun _ => h1.trans (State.setSlotTerms_quiet _ _ _ _)) (fun _ => ?_)
  split
  · exact h1.trans ((State.setSlotTerms_quiet _ _ _ _).after ⟨rfl, rfl, id⟩)
  · exact h1.trans ((State.register_quiet _ t).trans (State.setSlotTerms_quiet _ _ _ _))

theorem ServiceSlot.word_key (v : ServiceSlot) (k : BitVec 64) (w : BitVec 16) (eh el oh ol : Word) :
    (v.word k w eh el oh ol).key = v.key := by
  unfold ServiceSlot.word
  split <;> rfl

theorem State.applyNotice_quiet (s : State) (service : Byte) (p : List Byte) : Quiet s (s.applyNotice service p) := by
  unfold State.applyNotice
  split
  · exact s.titleNotice_quiet _ _
  · exact s.setSlot_quiet _ _ (fun v => v.word_key _ _ _ _ _ _)
  · exact .refl s

/-! ### Commands of the command ring -/

theorem State.inStay_quiet (s : State) {run : State → State × Answer} (h : ∀ u, Quiet u (run u).1) :
    Quiet s (s.inStay run).1 := by
  rcases s.inStay_cases run with ⟨-, e⟩ | ⟨-, e⟩ | ⟨-, e⟩ <;> rw [e]
  · exact .refl s
  · exact .refl s
  · exact h s

theorem State.wrongPin_quiet (s : State) : Quiet s s.wrongPin.1 := by
  unfold State.wrongPin
  split
  · exact ⟨rfl, rfl, id⟩
  · exact (State.raiseEvent_quiet _ _).after ⟨rfl, rfl, id⟩

theorem State.comparePin_quiet (s : State) (p : PinField) {matched : State → State × Answer}
    (h : ∀ u, Quiet u (matched u).1) : Quiet s (s.comparePin p matched).1 := by
  rcases s.comparePin_cases p matched with ⟨-, e⟩ | ⟨-, -, e⟩ | ⟨-, -, e⟩ <;> rw [e]
  · exact .refl s
  · exact (h _).after ⟨rfl, rfl, id⟩
  · exact s.wrongPin_quiet

/-- A command that is declined on a test, or goes on quietly, is quiet. -/
theorem Quiet.ite_fst {p : Prop} [Decidable p] {s : State} {x y : State × Answer} (h : p → Quiet s x.1)
    (k : ¬ p → Quiet s y.1) : Quiet s (if p then x else y).1 := by
  split
  · exact h ‹_›
  · exact k ‹_›

theorem State.runUnlock_quiet (s : State) (p : PinField) : Quiet s (s.runUnlock p).1 :=
  .ite_fst (fun _ => .refl s) (fun _ => s.inStay_quiet fun u => u.comparePin_quiet p fun _ => ⟨rfl, rfl, id⟩)

theorem State.endLift_quiet (s : State) (r : LiftReason) : Quiet s (s.endLift r) :=
  (State.raiseEvent_quiet _ _).after ⟨rfl, rfl, id⟩

theorem State.runRelock_quiet (s : State) : Quiet s s.runRelock.1 :=
  s.inStay_quiet fun u => .ite_fst (fun _ => u.endLift_quiet _) (fun _ => .refl u)

theorem State.runSetCeiling_quiet (s : State) (c : Byte) (p : PinField) : Quiet s (s.runSetCeiling c p).1 :=
  .ite_fst (fun _ => .refl s) fun _ => s.inStay_quiet fun u =>
    .ite_fst (fun _ => ⟨rfl, rfl, id⟩) fun _ =>
      .ite_fst (fun _ => .refl u) fun _ => u.comparePin_quiet p fun _ => ⟨rfl, rfl, id⟩

theorem State.runChangePin_quiet (s : State) (old new : PinField) : Quiet s (s.runChangePin old new).1 :=
  .ite_fst (fun _ => .refl s) fun _ => s.inStay_quiet fun u => u.comparePin_quiet old fun _ => ⟨rfl, rfl, id⟩

theorem State.becomeVacant_quiet (s : State) : Quiet s s.becomeVacant :=
  (State.raiseEvent_quiet _ _).after ⟨rfl, rfl, fun ⟨hr, _⟩ => ⟨hr, by simp⟩⟩

theorem State.release_quiet (s : State) (ack : Nat) : Quiet s { s with charges := s.charges.release ack } := by
  refine ⟨?_, rfl, id⟩
  simp [State.pathView, ChargeUnit.release]

theorem State.runAckCharges_quiet (s : State) (q : Nat) : Quiet s (s.runAckCharges q).1 :=
  .ite (fun _ => (s.release_quiet _).trans (State.becomeVacant_quiet _)) (fun _ => s.release_quiet _)

theorem State.runSetCredit_quiet (s : State) (w : Word) : Quiet s (s.runSetCredit w).1 :=
  s.inStay_quiet fun u => .ite_fst (fun _ => .refl u) (fun _ => ⟨rfl, rfl, id⟩)

theorem State.runBuy_quiet (s : State) (t : BitVec 16) : Quiet s (s.runBuy t).1 := by
  unfold State.runBuy
  split
  · exact .refl s
  · exact s.makeCommit_quiet _ _

theorem State.runTariff_quiet (s : State) (t : BitVec 16) (a b c : Byte) (m : BitVec 16) :
    Quiet s (s.runTariff t a b c m).1 :=
  .ite_fst (fun _ => .refl s) fun _ => .ite_fst (fun _ => .refl s) fun _ => ⟨rfl, rfl, id⟩

theorem State.runOpenStay_quiet (s : State) (n : Word) (c : Byte) (k : Word) (d : Byte) (p : PinField) :
    Quiet s (s.runOpenStay n c k d p).1 :=
  .ite_fst (fun _ => .refl s) fun _ => .ite_fst (fun _ => .refl s) fun _ => ⟨rfl, rfl, id⟩

theorem State.beginClose_quiet (s : State) : Quiet s s.beginClose :=
  (Quiet.ite (fun _ => s.endLift_quiet _) (fun _ => .refl s)).trans ⟨rfl, rfl, id⟩

theorem State.runCloseStay_quiet (s : State) : Quiet s s.runCloseStay.1 := by
  unfold State.runCloseStay
  split
  · exact .refl s
  · exact .refl s
  · exact s.beginClose_quiet

theorem State.runQueryTitle_quiet (s : State) (t : BitVec 16) : Quiet s (s.runQueryTitle t).1 := by
  unfold State.runQueryTitle
  split
  · exact .refl s
  · exact .ite_fst (fun _ => .refl s) (fun _ => .refl s)

/-! ### The retained store -/

theorem State.decay_quiet (s : State) (left : Retained) : Quiet s (s.decay left) :=
  .ite (fun _ => ⟨rfl, rfl, id⟩) (fun _ => .refl s)

theorem State.decayStep_quiet {s t : State} (h : s.decayStep = some t) : Quiet s t := by
  unfold State.decayStep at h
  split at h
  · contradiction
  · obtain rfl := Option.some.inj h
    exact (s.decay_quiet _).trans ⟨rfl, rfl, id⟩

end Sys2Proof.Machine
end

section
namespace Sys2Proof.Machine

open Relation

/-! ## Moves -/

/-- What an event of the store port and its bursts can do: the words and phases of a media transaction (R1 to R8), the requests,
bursts and completions of the house agents (R124, R142, R146), an orphan's discard (R11), and the hold of the reset line
(R159). -/
inductive PortMove : State → State → Prop
  | commandPhase {s t : State} {dir : Direction} {addr count : Nat} (h : s.takeCommandPhase dir addr count = some t) :
      PortMove s t
  | complete {s t : State} {words : List WriteWord} (h : s.completeMedia words = some t) : PortMove s t
  | resume {s t : State} (h : s.resumeMedia = some t) : PortMove s t
  | rewrite (s : State) (m : List Host.Cell) (h : Memory.wf s.store = true → Memory.wf m = true) :
      PortMove s { s with store := m }
  | reportTail (s : State) (w : WriteWord) : PortMove s (s.writeReportTail w)
  | beginFetch {s t : State} (h : s.beginFetch = some t) : PortMove s t
  | finishFetch {s : State} {addr : Nat} {data : List Word} (h : s.port = .house .command addr data false) (tag : Word)
      (code : Byte) (a : Answer) : PortMove s (s.finishFetch tag code a)
  | takeReport {s t : State} (h : s.takeReport = some t) : PortMove s t
  | completeReport {s t : State} (h : s.completeReport = some t) : PortMove s t
  | beginLog {s t : State} (h : s.beginLog = some t) : PortMove s t
  | completeLog {s t : State} (h : s.completeLog = some t) : PortMove s t
  | discard {s t : State} (h : s.discardHouse = some t) : PortMove s t
  | orphanEnds {s : State} {a : Agent} {addr : Nat} {data : List Word} (h : s.port = .house a addr data true) :
      PortMove s s.handOver
  | lineHolds (s : State) (words : List WriteWord) : PortMove s (s.lineHolds words)

/-- What an event can do to the lanes, the service slots and the log regions: a lane changes under its binding, a lane is bound or
unbound (R17, R19), and a log region is taken (R122). -/
inductive LaneMove : State → State → Prop
  | update (s : State) (n : Fin 4) (l : Lane) (hb : l.binding = (s.lanes.get n).binding)
      (hf : (s.lanes.get n).fits → l.fits) : LaneMove s (s.setLane n l)
  | bind (s : State) (n : Fin 4) (b : Binding) (hbase : b.base % 128 = 0) (hlow : 16 ≤ b.slots) (hhigh : b.slots ≤ 1024)
      (hin : b.base + b.slots * 128 ≤ Config.storeSize) (h : s.bindCheck n b = none) : LaneMove s (s.bindLane n b)
  | unbind (s : State) (n : Fin 4) (b : Binding) (h : (s.lanes.get n).binding = some b) : LaneMove s (s.unbindLane n b)
  | region (s : State) (base slots : Nat) : LaneMove s (s.runLogRegion base slots).1

/-- The volatile items as every restart, the entry to RETAIN and POWER_ON leave them (R15, R33, R51, R127, R152). -/
structure Cleared (s t : State) : Prop where
  store : Memory.wf s.store = true → Memory.wf t.store = true
  media : PortSafe s → PortSafe t
  requests : t.requests = Requests.none
  waitCount : t.waitCount = 0
  rotation : t.rotation = Agent.restartOrder
  holder : t.holderSafe = true
  commandRing : t.commandRing = .closed
  reportRing : t.reportRing = .closed
  attention : t.attention = false
  reports : t.reports = []
  refused : t.refused = []
  lanes : t.lanes = Four.all Lane.unbound
  slots : t.slots = Four.all none
  current : t.charges.current = none
  staged : t.charges.staged = none

/-- A move of the part. -/
inductive Move : State → State → Prop
  | quiet {s t : State} (h : Quiet s t) : Move s t
  | port {s t : State} (h : PortMove s t) : Move s t
  | lane {s t : State} (h : LaneMove s t) : Move s t
  | openCommandRing (s : State) : Move s s.openCommandRing
  | openReportRing (s : State) : Move s s.openReportRing
  | cleared {s t : State} (h : Cleared s t) : Move s t

/-- A sequence of moves. -/
abbrev Moves : State → State → Prop := ReflTransGen Move

theorem Quiet.moves {s t : State} (h : Quiet s t) : Moves s t := .single (.quiet h)

theorem PortMove.moves {s t : State} (h : PortMove s t) : Moves s t := .single (.port h)

theorem LaneMove.moves {s t : State} (h : LaneMove s t) : Moves s t := .single (.lane h)

theorem Cleared.moves {s t : State} (h : Cleared s t) : Moves s t := .single (.cleared h)

/-- Moves after moves, the later ones named first. -/
theorem Moves.after {s t u : State} (k : Moves t u) (h : Moves s t) : Moves s u := h.trans k

/-- A choice between moves is a sequence of moves. -/
theorem Moves.ite {p : Prop} [Decidable p] {s t u : State} (h : p → Moves s t) (k : ¬ p → Moves s u) :
    Moves s (if p then t else u) := by
  split
  · exact h ‹_›
  · exact k ‹_›

/-- Whatever every move keeps, a sequence of moves keeps. -/
theorem Moves.keep {safe : State → Prop} (hkeep : ∀ {s t}, Move s t → safe s → safe t) {s t : State} (h : Moves s t)
    (hs : safe s) : safe t := by
  induction h with
  | refl => exact hs
  | tail _ hm ih => exact hkeep hm ih

/-! ## Taking an event -/

theorem perform_moves {f : State → Option State} {s t : State} (hf : ∀ u v, f u = some v → Moves u v)
    (h : perform f s = .next t) : Moves s t := by
  injection h with h
  subst h
  cases hu : f s.settle with
  | none => exact s.settle_quiet.moves
  | some v => exact (hf _ v hu).after s.settle_quiet.moves

theorem performInTick_moves {f : State → Option State} {s t : State} (hf : ∀ u v, f u = some v → Moves u v)
    (h : performInTick f s = .next t) : Moves s t := by
  injection h with h
  subst h
  cases hu : f s with
  | none => exact .refl
  | some v => exact hf _ v hu

/-- An event taken under a condition. -/
theorem moves_of_guarded {p : Prop} [Decidable p] {s t u : State} (hm : Moves s u)
    (h : (if p then some u else none) = some t) : Moves s t := by
  split at h
  · exact Option.some.inj h ▸ hm
  · contradiction

/-- A fetch that is ready holds the store port, unorphaned (R142). -/
theorem State.fetchReady_port {s : State} {c : Instr} (h : s.fetchReady c = true) :
    ∃ addr data, s.port = .house .command addr data false := by
  obtain ⟨-, -, hf⟩ := (s.fetchReady_iff c).mp h
  unfold State.fetched at hf
  split at hf
  · exact ⟨_, _, ‹_›⟩
  · contradiction

/-- The port's holder is in the path view. -/
theorem State.port_of_pathView {s t : State} (h : t.pathView = s.pathView) : t.port = s.port := congrArg PathView.port h

/-- A command of the command ring whose work keeps the holder of the store port. -/
theorem execCommand_moves {c : Instr} {tag : Word} {code : Byte} {run : State → State × Answer} {s t : State}
    (h : execCommand c tag code run s = .next t) (hp : ∀ u, (run u).1.port = u.port) (hr : ∀ u, Moves u (run u).1) :
    Moves s t := by
  refine perform_moves (fun u v hv => ?_) h
  dsimp only at hv
  split at hv
  · rename_i hready
    obtain ⟨addr, data, hport⟩ := State.fetchReady_port hready
    obtain rfl := Option.some.inj hv
    exact (PortMove.finishFetch ((hp u).trans hport) tag code _).moves.after (hr u)
  · contradiction

/-- A command of the command ring whose work is quiet. -/
theorem execCommand_moves_of_quiet {c : Instr} {tag : Word} {code : Byte} {run : State → State × Answer} {s t : State}
    (h : execCommand c tag code run s = .next t) (hr : ∀ u, Quiet u (run u).1) : Moves s t :=
  execCommand_moves h (fun u => State.port_of_pathView (hr u).path) (fun u => (hr u).moves)

/-! ### The commands of the command ring, as their owners run them -/

theorem exec_siteKey (tag : Word) (key : BitVec 64) (s : State) :
    exec (.siteKey tag key) s = execCommand (.siteKey tag key) tag 0x01 (fun s => s.runSiteKey key) s := rfl

theorem exec_tariff (tag : Word) (taxRate : BitVec 16) (siteClamp houseCeiling discreetClass : Byte) (liftMinutes : BitVec 16)
    (s : State) :
    exec (.tariff tag taxRate siteClamp houseCeiling discreetClass liftMinutes) s =
      execCommand (.tariff tag taxRate siteClamp houseCeiling discreetClass liftMinutes) tag 0x02
        (fun s => s.runTariff taxRate siteClamp houseCeiling discreetClass liftMinutes) s := rfl

theorem exec_openStay (tag : Word) (number : Word) (ceiling : Byte) (credit : Word) (discount : Byte)
    (pin : PinField) (s : State) :
    exec (.openStay tag number ceiling credit discount pin) s =
      execCommand (.openStay tag number ceiling credit discount pin) tag 0x03
        (fun s => s.runOpenStay number ceiling credit discount pin) s := rfl

theorem exec_closeStay (tag : Word) (s : State) :
    exec (.closeStay tag) s = execCommand (.closeStay tag) tag 0x04 State.runCloseStay s := rfl

theorem exec_stayQuery (tag : Word) (s : State) :
    exec (.stayQuery tag) s = execCommand (.stayQuery tag) tag 0x05 State.runStayQuery s := rfl

theorem exec_ackCharges (tag : Word) (sequence : Word) (s : State) :
    exec (.ackCharges tag sequence) s =
      execCommand (.ackCharges tag sequence) tag 0x06 (fun s => s.runAckCharges sequence.toNat) s := rfl

theorem exec_logRegion (tag : Word) (base : Word) (slots : BitVec 16) (s : State) :
    exec (.logRegion tag base slots) s =
      execCommand (.logRegion tag base slots) tag 0x07 (fun s => s.runLogRegion base.toNat slots.toNat) s := rfl

theorem exec_setCredit (tag : Word) (limit : Word) (s : State) :
    exec (.setCredit tag limit) s = execCommand (.setCredit tag limit) tag 0x08 (fun s => s.runSetCredit limit) s := rfl

theorem exec_buy (tag : Word) (title : BitVec 16) (s : State) :
    exec (.buy tag title) s = execCommand (.buy tag title) tag 0x09 (fun s => s.runBuy title) s := rfl

theorem exec_bind (tag : Word) (lane role service : Byte) (base : Word) (slots : BitVec 16) (s : State) :
    exec (.bind tag lane role service base slots) s =
      execCommand (.bind tag lane role service base slots) tag 0x0A
        (fun s => s.runBind lane role service base.toNat slots.toNat) s := rfl

theorem exec_unbind (tag : Word) (lane : Byte) (s : State) :
    exec (.unbind tag lane) s = execCommand (.unbind tag lane) tag 0x0B (fun s => s.runUnbind lane) s := rfl

theorem exec_unlock (tag : Word) (pin : PinField) (s : State) :
    exec (.unlock tag pin) s = execCommand (.unlock tag pin) tag 0x0C (fun s => s.runUnlock pin) s := rfl

theorem exec_relock (tag : Word) (s : State) :
    exec (.relock tag) s = execCommand (.relock tag) tag 0x0D State.runRelock s := rfl

theorem exec_setCeiling (tag : Word) (ceiling : Byte) (pin : PinField) (s : State) :
    exec (.setCeiling tag ceiling pin) s =
      execCommand (.setCeiling tag ceiling pin) tag 0x0E (fun s => s.runSetCeiling ceiling pin) s := rfl

theorem exec_changePin (tag : Word) (old new : PinField) (s : State) :
    exec (.changePin tag old new) s = execCommand (.changePin tag old new) tag 0x0F (fun s => s.runChangePin old new) s := rfl

theorem exec_queryTitle (tag : Word) (title : BitVec 16) (s : State) :
    exec (.queryTitle tag title) s = execCommand (.queryTitle tag title) tag 0x10 (fun s => s.runQueryTitle title) s := rfl

theorem exec_unknown (tag : Word) (code : Byte) (s : State) :
    exec (.unknown tag code) s = execCommand (.unknown tag code) tag code (fun s => (s, .unknown, .absent)) s := rfl

/-! ## Words of a media transaction -/

/-- A word of the transaction in its data phase passes quietly. -/
theorem State.passWord_quiet {s : State} {t : MediaTxn} (hs : s.media.map MediaTxn.phase = some .data) (ht : t.phase = .data) :
    Quiet s (s.passWord t) :=
  ⟨by simp [State.pathView, State.passWord, hs, ht], rfl, id⟩

/-- The transaction whose word passes is in its data phase. -/
theorem State.wordTxn_phase {s : State} {d : Direction} {t : MediaTxn} (h : s.wordTxn d = some t) :
    s.media.map MediaTxn.phase = some .data ∧ t.phase = .data := by
  obtain ⟨hm, -, -, hp, -, -⟩ := (s.wordTxn_some d t).mp h
  simp [hm, hp]

/-- A written word reaches the store and passes (R1, R4, R7). -/
theorem State.writtenWord_moves {s : State} {t : MediaTxn} (h : s.wordTxn .write = some t) (a : Nat) (w : WriteWord) :
    Moves s ((s.storeWord a w).passWord t) :=
  have hp := State.wordTxn_phase h
  have hm : PortMove s (s.storeWord a w) := .rewrite s _ (Memory.wf_writeWord s.store a w)
  (State.passWord_quiet (s := s.storeWord a w) hp.1 hp.2).moves.after hm.moves

theorem State.anchorStep_moves {s t : State} {at? : Nat → Bool} {w : WriteWord} {act : State → Nat → State}
    (hact : ∀ u a, Moves u (act u a)) (h : s.anchorStep at? w act = some t) : Moves s t := by
  unfold State.anchorStep at h
  split at h
  · contradiction
  · rename_i m hm
    refine moves_of_guarded ?_ h
    exact .ite (fun _ => State.writtenWord_moves hm _ w) fun _ => (hact _ _).after (State.writtenWord_moves hm _ w)

theorem State.latchBase_quiet (s : State) (w : WriteWord) (a : Nat) : Quiet s (s.latchBase w a) :=
  .ite (fun _ => ⟨rfl, rfl, id⟩) fun _ => .ite (fun _ => ⟨rfl, rfl, id⟩) fun _ => .refl s

theorem State.writeCommandSlots_moves (s : State) (w : WriteWord) : Moves s (s.writeCommandSlots w) :=
  Moves.after (.single (.openCommandRing _)) (Quiet.moves ⟨rfl, rfl, id⟩)

theorem State.writeReportSlots_moves (s : State) (w : WriteWord) : Moves s (s.writeReportSlots w) :=
  Moves.after (.single (.openReportRing _)) (Quiet.moves ⟨rfl, rfl, id⟩)

theorem State.writeCommandTail_quiet (s : State) (w : WriteWord) : Quiet s (s.writeCommandTail w) := ⟨rfl, rfl, id⟩

/-! ### The lane engine -/

/-- A header write moves the counts of a lane within their ranges and leaves its binding, slice and reference (R21, R22). -/
theorem Lane.align_keeps (l : Lane) (good : Bool) :
    (l.align good).1.binding = l.binding ∧ (l.align good).1.slice = l.slice ∧
      (l.align good).1.assembly = l.assembly ∧
      (l.good ≤ 1 → l.bad ≤ 2 → (l.align good).1.good ≤ 1 ∧ (l.align good).1.bad ≤ 2) := by
  unfold Lane.align
  split
  · split
    · exact ⟨rfl, rfl, rfl, fun _ _ => ⟨by simp, by simp⟩⟩
    · exact ⟨rfl, rfl, rfl, fun _ _ => ⟨by simp; omega, by simpa⟩⟩
  · exact ⟨rfl, rfl, rfl, fun _ _ => ⟨by simp, by simpa⟩⟩
  · exact ⟨rfl, rfl, rfl, fun _ _ => ⟨by simpa, by simp⟩⟩
  · split
    · exact ⟨rfl, rfl, rfl, fun _ _ => ⟨by simp, by simp⟩⟩
    · exact ⟨rfl, rfl, rfl, fun _ _ => ⟨by simpa, by simp; omega⟩⟩

/-- A bound lane fits when its counts, its assembly and its slice's length do, under the same binding. -/
theorem Lane.fits_of_bound {l m : Lane} {b : Binding} (hl : l.binding = some b) (h : l.fits) (hm : m.binding = some b)
    (hgood : m.good ≤ 1) (hbad : m.bad ≤ 2) (hasm : ∀ a, m.assembly = some a → a.words.length = 31)
    (hslice : m.slice.length = l.slice.length) : m.fits := by
  obtain ⟨-, -, -, hfit⟩ := h
  rw [hl] at hfit
  refine ⟨hgood, hbad, hasm, ?_⟩
  rw [hm]
  exact ⟨hslice.trans hfit.1, hfit.2⟩

/-- What a header write leaves of a lane: its counts and alignment moved, one entry of its slice replaced, and the assembly closed
or started anew (R21 to R25, R29, R30). -/
theorem Lane.header_cases (l : Lane) (b : Binding) (v : ServiceSlot) (slot : Nat) (w : WriteWord) :
    ∃ good e r o, (l.header b v slot w).1 =
        { (Lane.align { l with assembly := none } good).1 with slice := l.slice.set slot e, reference := r, assembly := o } ∧
      ∀ a, o = some a → a.words.length = 31 := by
  unfold Lane.header
  dsimp only
  split
  · refine ⟨_, _, _, _, rfl, fun a ha => ?_⟩
    split at ha
    · exact Option.some.inj ha ▸ by simp [Assembly.start]
    · contradiction
  · exact ⟨_, _, _, _, rfl, fun a ha => by simp [Lane.align_keeps] at ha⟩

/-- A header write keeps the lane's binding. -/
theorem Lane.header_binding (l : Lane) (b : Binding) (v : ServiceSlot) (slot : Nat) (w : WriteWord) :
    (l.header b v slot w).1.binding = l.binding := by
  obtain ⟨good, e, r, o, h, -⟩ := l.header_cases b v slot w
  rw [h]
  exact (Lane.align_keeps _ _).1

/-- A header write keeps a bound lane within its bounds (R18, R21 to R25, R29). -/
theorem Lane.header_fits {l : Lane} {b : Binding} (hb : l.binding = some b) (v : ServiceSlot) (slot : Nat) (w : WriteWord)
    (h : l.fits) : (l.header b v slot w).1.fits := by
  have hbind := (l.header_binding b v slot w).trans hb
  obtain ⟨good, e, r, o, hl, ho⟩ := l.header_cases b v slot w
  rw [hl] at hbind ⊢
  obtain ⟨-, -, -, hcounts⟩ := Lane.align_keeps { l with assembly := none } good
  obtain ⟨hgood, hbad⟩ := hcounts h.1 h.2.1
  exact Lane.fits_of_bound hb h hbind hgood hbad ho (by simp)

theorem State.takeHeader_moves (s : State) (n : Fin 4) (addr : Nat) (w : WriteWord) : Moves s (s.takeHeader n addr w) := by
  unfold State.takeHeader
  split
  · exact .refl
  · rename_i b hb
    refine .ite (fun _ => .refl) fun _ => ?_
    exact (State.raiseEvent?_quiet _ _).moves.after
      (LaneMove.update s n _ (Lane.header_binding _ _ _ _ _) (Lane.header_fits hb _ _ _)).moves

/-- A lane changed in its assembly alone, to none or to one of 31 words, fits as before. -/
theorem Lane.fits_assembly {l : Lane} {b : Binding} (hb : l.binding = some b) (o : Option Assembly)
    (ho : ∀ a, o = some a → a.words.length = 31) (h : l.fits) : ({ l with assembly := o } : Lane).fits :=
  Lane.fits_of_bound hb h hb h.1 h.2.1 ho rfl

theorem State.takePayload_moves (s : State) (n : Fin 4) (addr : Nat) (w : WriteWord) : Moves s (s.takePayload n addr w) := by
  unfold State.takePayload
  split
  · rename_i b a hb ha
    refine .ite (fun _ => ?_) (fun _ => .refl)
    dsimp only
    split
    · exact (State.applyNotice_quiet _ _ _).moves.after
        (LaneMove.update s n { s.lanes.get n with assembly := none } rfl (Lane.fits_assembly hb none (by simp))).moves
    · refine (LaneMove.update s n { s.lanes.get n with assembly := some (a.place (payloadIndex addr) w.data) } rfl
        fun hfit => Lane.fits_assembly hb _ (fun x hx => ?_) hfit).moves
      obtain rfl := Option.some.inj hx
      simpa [Assembly.place] using hfit.2.2.1 a ha
  · exact .refl

theorem State.markRead_moves (s : State) (n : Fin 4) (slot : Nat) {b : Binding} (hb : (s.lanes.get n).binding = some b) :
    Moves s (s.markRead n slot) :=
  let l := s.lanes.get n
  (LaneMove.update s n { l with slice := l.slice.set slot { l.entry slot with state := .read } } rfl
    fun h => Lane.fits_of_bound hb h hb h.1 h.2.1 h.2.2.1 (by simp [l])).moves

theorem State.laneWriteStep_moves {s t : State} {header : Bool} {w : WriteWord} {take : State → Fin 4 → Nat → State}
    (htake : ∀ u n a, Moves u (take u n a)) (h : s.laneWriteStep header w take = some t) : Moves s t := by
  unfold State.laneWriteStep at h
  split at h
  · contradiction
  · rename_i m hm
    split at h
    · refine moves_of_guarded ?_ h
      exact .ite (fun _ => (htake _ _ _).after (State.writtenWord_moves hm _ w)) fun _ => State.writtenWord_moves hm _ w
    · contradiction

/-- The first payload word of a first read touches the lane's slice and the seen flags, and not the media transaction. -/
theorem State.firstPayload_moves (s : State) (t : MediaTxn) (n : Fin 4) (j : Judgement) :
    Moves s (s.firstPayload t n j) ∧ (s.firstPayload t n j).media = s.media := by
  unfold State.firstPayload
  split
  · split
    · exact ⟨.refl, rfl⟩
    · rename_i b hb
      dsimp only
      split
      · exact ⟨(State.applyMark_quiet _ _).moves.after (s.markRead_moves n _ hb), rfl⟩
      · exact ⟨s.markRead_moves n _ hb, rfl⟩
  · exact ⟨.refl, rfl⟩

theorem State.laneReadStep_moves {s t : State} (h : s.laneReadStep = some t) : Moves s t := by
  unfold State.laneReadStep at h
  split at h
  · contradiction
  · rename_i m hm
    obtain ⟨hs, hp⟩ := State.wordTxn_phase hm
    split at h
    · dsimp only at h
      split at h
      · rename_i n _ _ j _
        obtain rfl := Option.some.inj h
        obtain ⟨hmoves, hmedia⟩ := State.firstPayload_moves
          { s with presented := s.presented ++ [presentWord j m.nextAddr (Memory.readWord s.store m.nextAddr)] } m n j
        refine (State.passWord_quiet ?_ (by exact hp)).moves.after (hmoves.after (Quiet.moves ⟨rfl, rfl, id⟩))
        rw [hmedia]
        exact hs
      · obtain rfl := Option.some.inj h
        exact (State.passWord_quiet (by exact hs) hp).moves.after (Quiet.moves ⟨rfl, rfl, id⟩)
    · contradiction

/-! ## Commands that touch the lanes and the log regions -/

/-- What the format test of BIND lets through (R17, order 1). -/
theorem bindFormat_some {lane role : Byte} {base slots : Nat} {n : Fin 4} {r : Role}
    (h : bindFormat lane role base slots = some (n, r)) :
    base % 128 = 0 ∧ 16 ≤ slots ∧ slots ≤ 1024 ∧ base + slots * 128 ≤ Config.storeSize := by
  unfold bindFormat at h
  split at h
  · assumption
  · contradiction

theorem State.joinSlot_port (s : State) (service : Byte) : (s.joinSlot service).port = s.port := by
  unfold State.joinSlot
  split
  · rfl
  · split <;> rfl

theorem State.leaveSlot_port (s : State) (service : Byte) : (s.leaveSlot service).port = s.port := by
  unfold State.leaveSlot
  split <;> rfl

theorem State.runBind_moves (s : State) (lane role service : Byte) (base slots : Nat) :
    Moves s (s.runBind lane role service base slots).1 ∧ (s.runBind lane role service base slots).1.port = s.port := by
  unfold State.runBind
  split
  · exact ⟨.refl, rfl⟩
  · rename_i n r hf
    obtain ⟨hbase, hlow, hhigh, hin⟩ := bindFormat_some hf
    dsimp only
    split
    · exact ⟨.refl, rfl⟩
    · rename_i hc
      exact ⟨(LaneMove.bind s n _ hbase hlow hhigh hin hc).moves, State.joinSlot_port _ _⟩

theorem State.runUnbind_moves (s : State) (lane : Byte) :
    Moves s (s.runUnbind lane).1 ∧ (s.runUnbind lane).1.port = s.port := by
  unfold State.runUnbind
  split
  · exact ⟨.refl, rfl⟩
  · split
    · exact ⟨.refl, rfl⟩
    · rename_i b hb
      exact ⟨(LaneMove.unbind s _ b hb).moves, State.leaveSlot_port _ _⟩

/-- LOG_REGION answers with the first test that fails, or takes the region as the current or the staged one (R122). -/
theorem State.runLogRegion_cases (s : State) (base slots : Nat) :
    (∃ r, s.regionCheck base slots = some r ∧ (s.runLogRegion base slots).1 = s) ∨
    (s.regionCheck base slots = none ∧ s.charges.current = none ∧
      (s.runLogRegion base slots).1 = { s with charges := { s.charges with current := some ⟨base, slots, 0⟩ } }) ∨
    (∃ r, s.regionCheck base slots = none ∧ s.charges.current = some r ∧
      (s.runLogRegion base slots).1 = { s with charges := { s.charges with staged := some ⟨base, slots⟩ } }) := by
  unfold State.runLogRegion
  split
  · exact .inl ⟨_, ‹_›, rfl⟩
  · split
    · exact .inr (.inl ⟨‹_›, ‹_›, rfl⟩)
    · exact .inr (.inr ⟨_, ‹_›, ‹_›, rfl⟩)

theorem State.runLogRegion_port (s : State) (base slots : Nat) : (s.runLogRegion base slots).1.port = s.port := by
  rcases s.runLogRegion_cases base slots with ⟨r, -, h⟩ | ⟨-, -, h⟩ | ⟨r, -, -, h⟩ <;> rw [h]

/-! ## Restarts, retention and power-on -/

/-- No house access that is an orphan, and no other holder, breaks what section 1.5 says of the holder. -/
theorem Port.orphaned_holderSafe (p : Port) (s : State) : ({ s with port := p.orphaned } : State).holderSafe = true := by
  cases p <;> rfl

/-- A media transaction whose binding ends keeps its phase. -/
theorem MediaTxn.map_unbound_phase (o : Option MediaTxn) :
    (o.map MediaTxn.unbound).map MediaTxn.phase = o.map MediaTxn.phase := by
  cases o <;> rfl

/-- MEDIA holds a port whose house access becomes an orphan exactly when it held it before. -/
theorem Port.orphaned_eq_media (p : Port) : p.orphaned = .media ↔ p = .media := by
  cases p <;> simp [Port.orphaned]

/-- Whether MEDIA is safe is a matter of the port, the phase and what stands behind. -/
theorem PortSafe.congr {s t : State} (hport : t.port = .media ↔ s.port = .media)
    (hphase : t.media.map MediaTxn.phase = s.media.map MediaTxn.phase) (hnext : t.nextPhase.isSome = s.nextPhase.isSome)
    (h : PortSafe s) : PortSafe t := by
  have hsome : t.media.isSome = s.media.isSome := by
    simpa using congrArg Option.isSome hphase
  exact ⟨by rw [hport, hphase]; exact h.1, by rw [hnext, hsome]; exact h.2⟩

/-- No media transaction is in its data phase, and MEDIA does not hold the port. -/
theorem PortSafe.of_idle {s : State} (hport : s.port ≠ .media) (hphase : s.media.map MediaTxn.phase ≠ some .data)
    (hnext : s.nextPhase.isSome = true → s.media.isSome = true) : PortSafe s :=
  ⟨iff_of_false hport hphase, hnext⟩

/-- A restart's state but for its cold defaults, said once (R161). -/
def State.warmRestart (s : State) (cause : Cause) : State :=
  { s.clearVolatile with
    port := s.port.orphaned
    causes := s.causes.after cause
    liftMark := liftMarkAfter cause s.liftMark s.lock.lift
    lock := { s.lock with lift := 0 } }

theorem State.restart_cases (s : State) (cause : Cause) :
    (cause = .cold ∧ s.restart cause = (s.warmRestart cause).coldDefaults) ∨
      (cause ≠ .cold ∧ s.restart cause = s.warmRestart cause) := by
  by_cases h : cause = .cold
  · exact .inl ⟨h, if_pos h⟩
  · exact .inr ⟨h, if_neg h⟩

theorem State.restart_store (s : State) (cause : Cause) : (s.restart cause).store = s.store := by
  rcases s.restart_cases cause with ⟨-, h⟩ | ⟨-, h⟩ <;> rw [h] <;> rfl

theorem State.restart_cleared (s : State) (cause : Cause) : Cleared s (s.restart cause) := by
  have hwarm : PortSafe s → PortSafe (s.warmRestart cause) :=
    PortSafe.congr (Port.orphaned_eq_media _) (MediaTxn.map_unbound_phase _) rfl
  have hhold : (s.warmRestart cause).holderSafe = true := Port.orphaned_holderSafe _ _
  rcases s.restart_cases cause with ⟨-, h⟩ | ⟨-, h⟩ <;> rw [h]
  · exact ⟨id, hwarm, rfl, rfl, rfl, hhold, rfl, rfl, rfl, rfl, rfl, rfl, rfl, rfl, rfl⟩
  · exact ⟨id, hwarm, rfl, rfl, rfl, hhold, rfl, rfl, rfl, rfl, rfl, rfl, rfl, rfl, rfl⟩

theorem State.powerOnStep_cleared (s : State) : Cleared s s.powerOnStep :=
  ⟨id, fun _ => PortSafe.of_idle (by simp [State.powerOnStep]) (by simp [State.powerOnStep]) (by simp [State.powerOnStep]),
    rfl, rfl, rfl, rfl, rfl, rfl, rfl, rfl, rfl, rfl, rfl, rfl, rfl⟩

/-- A cut leaves no media transaction in its data phase (R158, R159). -/
theorem State.cutMedia_phase (s : State) (ws : List WriteWord) : (s.cutMedia ws).media.map MediaTxn.phase ≠ some .data := by
  unfold State.cutMedia
  split
  · simp [*]
  · dsimp only
    split
    · split <;> simp
    · simp

/-- Words of a plain transaction keep the store's canonical form. -/
theorem State.passPlain_wf (s : State) (t : MediaTxn) (ws : List WriteWord) (n : Nat) (h : Memory.wf s.store = true) :
    Memory.wf (s.passPlain t ws n).store = true := by
  unfold State.passPlain
  split
  · exact Memory.wf_writeWords ws _ _ h
  · exact h

theorem State.cutMedia_wf (s : State) (ws : List WriteWord) (h : Memory.wf s.store = true) :
    Memory.wf (s.cutMedia ws).store = true := by
  unfold State.cutMedia
  split
  · exact h
  · dsimp only
    split
    · exact s.passPlain_wf _ _ _ h
    · exact h

theorem State.cutBurst_wf (s : State) (ws : List WriteWord) (h : Memory.wf s.store = true) :
    Memory.wf (s.cutBurst ws).store = true := by
  unfold State.cutBurst
  split
  · exact Memory.wf_writeWords _ _ _ h
  · exact h

theorem State.cutBurst_media (s : State) (ws : List WriteWord) :
    (s.cutBurst ws).media = s.media ∧ (s.cutBurst ws).port = .free := by
  unfold State.cutBurst
  split <;> exact ⟨rfl, rfl⟩

theorem State.enterRetainStep_port (s : State) (ws : List WriteWord) : (s.enterRetainStep ws).port = .free :=
  (State.cutBurst_media _ ws).2

theorem State.enterRetainStep_cleared (s : State) (ws : List WriteWord) : Cleared s (s.enterRetainStep ws) := by
  have hport := s.enterRetainStep_port ws
  have hphase : (s.enterRetainStep ws).media.map MediaTxn.phase = (s.cutMedia ws).media.map MediaTxn.phase :=
    (MediaTxn.map_unbound_phase _).trans (by rw [(State.cutBurst_media _ ws).1])
  refine ⟨fun h => (State.cutBurst_wf _ ws (s.cutMedia_wf ws h)), fun _ => ?_, rfl, rfl, rfl, ?_, rfl, rfl, rfl, rfl, rfl, rfl,
    rfl, rfl, rfl⟩
  · exact PortSafe.of_idle (by simp [hport]) (by rw [hphase]; exact s.cutMedia_phase ws) (by simp [State.enterRetainStep])
  · simp [State.holderSafe, hport]

theorem State.enterRunStep_moves (s : State) (cs : List (BitVec 26 × Byte)) : Moves s (s.enterRunStep cs) := by
  let r := s.restart (if s.checkHolds then .dip else .cold)
  have hr : Cleared s r := s.restart_cleared _
  have hm : PortMove r { r with store := Memory.change s.store cs } :=
    .rewrite r _ fun h => Memory.wf_change cs _ (State.restart_store s _ ▸ h)
  exact Moves.after (Quiet.moves (s := { r with store := Memory.change s.store cs }) ⟨rfl, rfl, id⟩) (hm.moves.after hr.moves)

theorem State.recoverStep_quiet (s : State) : Quiet s s.recoverStep := ⟨rfl, rfl, id⟩

theorem State.relapseStep_quiet (s : State) : Quiet s s.relapseStep := ⟨rfl, rfl, id⟩

theorem State.sampleStep_moves (s : State) (x : Sample) : Moves s (s.sampleStep x) := by
  unfold State.sampleStep
  split
  · cases x with
    | low => exact .ite (fun _ => (s.enterRetainStep_cleared []).moves) fun _ => Quiet.moves ⟨rfl, rfl, id⟩
    | between => exact Quiet.moves ⟨rfl, rfl, id⟩
    | good => exact Quiet.moves ⟨rfl, rfl, id⟩
  · exact .ite (fun _ => Quiet.moves ⟨rfl, rfl, id⟩) fun _ => .refl
  · cases x with
    | low => exact Quiet.moves ⟨rfl, rfl, id⟩
    | between => exact Quiet.moves ⟨rfl, rfl, id⟩
    | good => exact .ite (fun _ => s.enterRunStep_moves []) fun _ => Quiet.moves ⟨rfl, rfl, id⟩

theorem State.assertStep_moves {s t : State} {ws : List WriteWord} (h : s.assertStep ws = some t) : Moves s t := by
  unfold State.assertStep at h
  split at h
  · contradiction
  · split at h
    · exact Option.some.inj h ▸ (PortMove.lineHolds s ws).moves
    · exact Option.some.inj h ▸ Quiet.moves ⟨rfl, rfl, id⟩

theorem State.releaseStep_moves {s t : State} (h : s.releaseStep = some t) : Moves s t := by
  unfold State.releaseStep at h
  split at h
  · contradiction
  · split at h
    · have hq : Quiet (s.restart .line) { s.restart .line with resetLine := false } := ⟨rfl, rfl, id⟩
      exact Option.some.inj h ▸ hq.moves.after (s.restart_cleared .line).moves
    · exact Option.some.inj h ▸ Quiet.moves ⟨rfl, rfl, id⟩

theorem execRestart_moves {tag : Word} {s t : State} (h : execRestart tag s = .next t) : Moves s t := by
  refine perform_moves (fun u v hv => ?_) h
  split at hv
  · rename_i hready
    obtain ⟨addr, data, hport⟩ := State.fetchReady_port hready
    obtain rfl := Option.some.inj hv
    have hp : (u.restart .command).port = .house .command addr data true := by
      show u.port.orphaned = _
      rw [hport]
      rfl
    exact (PortMove.orphanEnds hp).moves.after (u.restart_cleared .command).moves
  · contradiction

theorem execMediaCommandPhase_moves {dir : Direction} {addr : Word} {count : Nat} {s t : State}
    (h : execMediaCommandPhase dir addr count s = .next t) : Moves s t := by
  unfold execMediaCommandPhase at h
  split at h
  · contradiction
  · split at h
    · contradiction
    · exact perform_moves (fun u v hv => (PortMove.commandPhase hv).moves) h

/-! ## Every step is a sequence of moves -/

theorem exec_moves {i : Instr} {s t : State} (h : exec i s = .next t) : Moves s t := by
  cases i with
  | mediaCommandPhase dir addr count => exact execMediaCommandPhase_moves h
  | mediaTransactionComplete words => exact perform_moves (fun _ _ hv => (PortMove.complete hv).moves) h
  | mediaResume => exact perform_moves (fun _ _ hv => (PortMove.resume hv).moves) h
  | anchorWrite w =>
    exact perform_moves (fun _ _ hv => State.anchorStep_moves (fun u a => (u.latchBase_quiet w a).moves) hv) h
  | commandRingSlots w =>
    exact perform_moves (fun _ _ hv => State.anchorStep_moves (fun u _ => u.writeCommandSlots_moves w) hv) h
  | reportRingSlots w =>
    exact perform_moves (fun _ _ hv => State.anchorStep_moves (fun u _ => u.writeReportSlots_moves w) hv) h
  | commandTail w =>
    exact perform_moves (fun _ _ hv => State.anchorStep_moves (fun u _ => (u.writeCommandTail_quiet w).moves) hv) h
  | reportTail w =>
    exact perform_moves (fun _ _ hv => State.anchorStep_moves (fun u _ => (PortMove.reportTail u w).moves) hv) h
  | headerWrite w =>
    exact perform_moves (fun _ _ hv => State.laneWriteStep_moves (fun u n a => u.takeHeader_moves n a w) hv) h
  | payloadWrite w =>
    exact perform_moves (fun _ _ hv => State.laneWriteStep_moves (fun u n a => u.takePayload_moves n a w) hv) h
  | laneReadWord => exact perform_moves (fun _ _ => State.laneReadStep_moves) h
  | commandFetchRequest => exact perform_moves (fun _ _ hv => (PortMove.beginFetch hv).moves) h
  | siteKey tag key =>
    exact execCommand_moves_of_quiet ((exec_siteKey ..).symm.trans h) (fun _ => ⟨rfl, rfl, id⟩)
  | tariff tag a b c d e =>
    exact execCommand_moves_of_quiet ((exec_tariff ..).symm.trans h) fun u => u.runTariff_quiet a b c d e
  | openStay tag n c k d p =>
    exact execCommand_moves_of_quiet ((exec_openStay ..).symm.trans h) fun u => u.runOpenStay_quiet n c k d p
  | closeStay tag =>
    exact execCommand_moves_of_quiet ((exec_closeStay ..).symm.trans h) State.runCloseStay_quiet
  | stayQuery tag =>
    exact execCommand_moves_of_quiet ((exec_stayQuery ..).symm.trans h) Quiet.refl
  | ackCharges tag q =>
    exact execCommand_moves_of_quiet ((exec_ackCharges ..).symm.trans h) fun u => u.runAckCharges_quiet _
  | logRegion tag base slots =>
    exact execCommand_moves ((exec_logRegion ..).symm.trans h)
      (fun u => u.runLogRegion_port _ _) fun u => (LaneMove.region u _ _).moves
  | setCredit tag limit =>
    exact execCommand_moves_of_quiet ((exec_setCredit ..).symm.trans h) fun u => u.runSetCredit_quiet limit
  | buy tag title =>
    exact execCommand_moves_of_quiet ((exec_buy ..).symm.trans h) fun u => u.runBuy_quiet title
  | bind tag lane role service base slots =>
    exact execCommand_moves ((exec_bind ..).symm.trans h)
      (fun u => (u.runBind_moves _ _ _ _ _).2) fun u => (u.runBind_moves _ _ _ _ _).1
  | unbind tag lane =>
    exact execCommand_moves ((exec_unbind ..).symm.trans h)
      (fun u => (u.runUnbind_moves lane).2) fun u => (u.runUnbind_moves lane).1
  | unlock tag pin =>
    exact execCommand_moves_of_quiet ((exec_unlock ..).symm.trans h) fun u => u.runUnlock_quiet pin
  | relock tag =>
    exact execCommand_moves_of_quiet ((exec_relock ..).symm.trans h) State.runRelock_quiet
  | setCeiling tag c pin =>
    exact execCommand_moves_of_quiet ((exec_setCeiling ..).symm.trans h) fun u => u.runSetCeiling_quiet c pin
  | changePin tag old new =>
    exact execCommand_moves_of_quiet ((exec_changePin ..).symm.trans h) fun u => u.runChangePin_quiet old new
  | queryTitle tag title =>
    exact execCommand_moves_of_quiet ((exec_queryTitle ..).symm.trans h) fun u => u.runQueryTitle_quiet title
  | restart tag => exact execRestart_moves h
  | unknown tag code =>
    exact execCommand_moves_of_quiet ((exec_unknown ..).symm.trans h) Quiet.refl
  | reportTake => exact perform_moves (fun _ _ hv => (PortMove.takeReport hv).moves) h
  | reportWriteComplete => exact perform_moves (fun _ _ hv => (PortMove.completeReport hv).moves) h
  | logWriteBegin => exact perform_moves (fun _ _ hv => (PortMove.beginLog hv).moves) h
  | logWriteComplete => exact perform_moves (fun _ _ hv => (PortMove.completeLog hv).moves) h
  | secondsTick => exact perform_moves (fun u _ hv => moves_of_guarded u.secondsTickStep_quiet.moves hv) h
  | previewEnd => exact performInTick_moves (fun _ _ hv => (State.previewEndStep_quiet hv).moves) h
  | rentalLapsed => exact performInTick_moves (fun _ _ hv => (State.rentalLapsedStep_quiet hv).moves) h
  | liftExpired => exact performInTick_moves (fun _ _ hv => (State.liftExpiredStep_quiet hv).moves) h
  | lockoutEnded => exact performInTick_moves (fun _ _ hv => (State.lockoutEndedStep_quiet hv).moves) h
  | enterRetain passed =>
    exact perform_moves (fun u _ hv => moves_of_guarded (u.enterRetainStep_cleared passed).moves hv) h
  | supplyRecover => exact perform_moves (fun u _ hv => moves_of_guarded u.recoverStep_quiet.moves hv) h
  | supplyRelapse => exact perform_moves (fun u _ hv => moves_of_guarded u.relapseStep_quiet.moves hv) h
  | enterRun changed => exact perform_moves (fun u _ hv => moves_of_guarded (u.enterRunStep_moves changed) hv) h
  | powerOn => exact perform_moves (fun u _ hv => Option.some.inj hv ▸ u.powerOnStep_cleared.moves) h
  | resetAssert passed => exact perform_moves (fun _ _ => State.assertStep_moves) h
  | resetRelease => exact perform_moves (fun _ _ => State.releaseStep_moves) h
  | supplySample v => exact perform_moves (fun u _ hv => Option.some.inj hv ▸ u.sampleStep_moves _) h
  | houseAccessDiscarded => exact perform_moves (fun _ _ hv => (PortMove.discard hv).moves) h
  | retainedStoreDecay => exact perform_moves (fun _ _ hv => (State.decayStep_quiet hv).moves) h

/-- Every step is a sequence of moves. -/
theorem step_moves {s t : State} (h : step s = .next t) : Moves s t := by
  unfold step at h
  split at h
  · injection h with h
    subst h
    exact (clockPeriod_quiet s).moves
  · exact (exec_moves h).after (Quiet.moves ⟨rfl, rfl, id⟩)

/-- Whatever every move keeps, every step keeps. -/
theorem keptByStep_of_move {safe : State → Prop} (h : ∀ {s t}, Move s t → safe s → safe t) : KeptByStep safe :=
  fun _ _ hs hstep => (step_moves hstep).keep h hs

end Sys2Proof.Machine
end

section
namespace Sys2Proof.Machine

/-! ## The events of the store port, case by case -/

/-- A command phase is taken with no transaction in flight, or stands behind the one in flight (R1; log entry 24). -/
theorem State.takeCommandPhase_some {s t : State} {dir : Direction} {addr count : Nat}
    (h : s.takeCommandPhase dir addr count = some t) :
    (s.media = none ∧ t = { s with media := some (s.newTxn dir addr count), presented := [] }.requestMedia) ∨
      (s.media.isSome = true ∧ t = { s with nextPhase := some ⟨dir, addr, count⟩ }) := by
  unfold State.takeCommandPhase at h
  split at h
  · contradiction
  · split at h
    · exact .inl ⟨‹_›, (Option.some.inj h).symm⟩
    · split at h
      · exact .inr ⟨Option.isSome_iff_ne_none.mpr ‹_›, (Option.some.inj h).symm⟩
      · contradiction

/-- The last words of a transaction touch the store, what is presented and the transaction, and keep the store's form. -/
theorem State.lastWords_some {s u : State} {m : MediaTxn} {ws : List WriteWord} (h : s.lastWords m ws = some u) :
    u = { s with store := u.store, presented := u.presented, media := u.media } ∧
      (Memory.wf s.store = true → Memory.wf u.store = true) := by
  have hplain : ∀ xs n, s.passPlain m xs n = { s with
      store := (s.passPlain m xs n).store, presented := (s.passPlain m xs n).presented
      media := (s.passPlain m xs n).media } := by
    intro xs n
    unfold State.passPlain
    split <;> rfl
  unfold State.lastWords at h
  split at h
  · split at h
    · obtain rfl := Option.some.inj h
      exact ⟨rfl, id⟩
    · contradiction
  · split at h
    · split at h
      · obtain rfl := Option.some.inj h
        exact ⟨hplain _ _, s.passPlain_wf _ _ _⟩
      · contradiction
    · obtain rfl := Option.some.inj h
      exact ⟨hplain _ _, s.passPlain_wf _ _ _⟩

/-- A transaction completes in its data phase at the store port, and the port is handed on (R1, R13). -/
theorem State.completeMedia_some {s t : State} {ws : List WriteWord} (h : s.completeMedia ws = some t) :
    s.working = true ∧ s.port = .media ∧ ∃ m u, s.media = some m ∧ m.phase = .data ∧ s.lastWords m ws = some u ∧
      t = u.nextMedia.handOver := by
  unfold State.completeMedia at h
  split at h
  · contradiction
  · rename_i m hm
    split at h
    · rename_i hc
      obtain ⟨u, hu, rfl⟩ := Option.map_eq_some_iff.mp h
      exact ⟨hc.1, hc.2.1, m, u, hm, hc.2.2, hu, rfl⟩
    · contradiction

/-- A held transaction asks for the store port again (R6). -/
theorem State.resumeMedia_some {s t : State} (h : s.resumeMedia = some t) :
    ∃ m, s.media = some m ∧ m.phase = .held ∧ t = { s with media := some { m with phase := .waiting } }.requestMedia := by
  unfold State.resumeMedia at h
  split at h
  · contradiction
  · rename_i m hm
    split at h
    · exact ⟨m, hm, (‹_ ∧ _›).2, (Option.some.inj h).symm⟩
    · contradiction

/-- A fetch begins with none in progress, and asks for the store port (R142). -/
theorem State.beginFetch_some {s t : State} (h : s.beginFetch = some t) :
    s.fetch = none ∧ t = { s with fetch := some s.commandRing.head }.request .command := by
  unfold State.beginFetch at h
  split at h
  · rename_i hc
    refine ⟨?_, (Option.some.inj h).symm⟩
    rw [Bool.and_eq_true] at hc
    unfold State.fetchDue at hc
    split at hc
    · simp only [Bool.and_eq_true, Option.isNone_iff_eq_none] at hc
      exact hc.2.1.1.2
    · simp at hc
  · contradiction

/-- A report is taken with none being written: the queue is dropped, or its head's write asks for the store port (R146, R147). -/
theorem State.takeReport_some {s t : State} (h : s.takeReport = some t) :
    ∃ r rest, s.reports = r :: rest ∧ s.reportWrite = none ∧
      (t = { s with reports := [], overflow := true } ∨
        ∃ w, t = { s with reports := rest, reportWrite := some w, overflow := false }.request .report) := by
  unfold State.takeReport at h
  split at h
  · contradiction
  · rename_i r rest hr
    split at h
    · rename_i hc
      refine ⟨r, rest, hr, hc.2, ?_⟩
      split at h
      · exact .inl (Option.some.inj h).symm
      · exact .inr ⟨_, (Option.some.inj h).symm⟩
    · contradiction

/-- A report write that holds the store port, unorphaned, completes and hands the port on (R146). -/
theorem State.completeReport_some {s t : State} (h : s.completeReport = some t) :
    ∃ addr data w, s.port = .house .report addr data false ∧ s.reportWrite = some w ∧
      t = ({ (s.houseWrite addr data).clearMarks w.report with
        reportRing := s.reportRing.advance, reportWrite := none }.refreshAttention).handOver := by
  unfold State.completeReport at h
  split at h
  · rename_i addr data w hp hw
    split at h
    · exact ⟨addr, data, w, hp, hw, (Option.some.inj h).symm⟩
    · contradiction
  · contradiction

/-- A LOG write begins with none in progress, and asks for the store port (R124). -/
theorem State.beginLog_some {s t : State} (h : s.beginLog = some t) :
    s.charges.write = none ∧ ∃ w, t = { s with charges := { s.charges with write := some w } }.request .log := by
  unfold State.beginLog at h
  split at h
  · split at h
    · exact ⟨‹_›, _, (Option.some.inj h).symm⟩
    · contradiction
  · contradiction

/-- The region's advance changes the regions of the charge unit and the pending queue alone (R124, R125). -/
theorem State.advanceRegion_quiet_path (s : State) : s.advanceRegion.pathView = s.pathView ∧
    s.advanceRegion.rangeView.lanes = s.lanes ∧ s.advanceRegion.rangeView.slotKeys = s.slotKeys ∧
    (QueueSafe s → QueueSafe s.advanceRegion) := by
  unfold State.advanceRegion
  split
  · exact ⟨rfl, rfl, rfl, id⟩
  · split
    · have hq := State.raiseEvent_quiet
        { s with charges := { s.charges with current := s.charges.staged.map StagedRegion.toCurrent, staged := none } }
        (.logRegionNeeded (if s.charges.staged.isSome then .stagedTaken else .noneLeft) s.charges.waiting)
      exact ⟨hq.path, congrArg RangeView.lanes hq.ranges, congrArg RangeView.slotKeys hq.ranges, hq.queues⟩
    · exact ⟨rfl, rfl, rfl, id⟩

/-- A LOG write that holds the store port, unorphaned, completes and hands the port on (R124). -/
theorem State.completeLog_some {s t : State} (h : s.completeLog = some t) :
    ∃ addr data w list, s.port = .house .log addr data false ∧ s.charges.write = some w ∧
      t = ({ s.houseWrite addr data with charges := { s.charges with list := list, write := none } }.advanceRegion).handOver := by
  unfold State.completeLog at h
  split at h
  · rename_i addr data w hp hw
    split at h
    · exact ⟨addr, data, w, _, hp, hw, (Option.some.inj h).symm⟩
    · contradiction
  · contradiction

/-- An orphaned access reaches its last word and hands the port on (R11, R15). -/
theorem State.discardHouse_some {s t : State} (h : s.discardHouse = some t) :
    ∃ a addr data, s.port = .house a addr data true ∧ t = ((s.houseWrite addr data).dropOrphan a).handOver := by
  unfold State.discardHouse at h
  split at h
  · split at h
    · exact ⟨_, _, _, ‹_›, (Option.some.inj h).symm⟩
    · contradiction
  · contradiction

/-- What is still in progress of the orphan's work is over, unless its agent has a new request waiting (R11). -/
theorem State.dropOrphan_eq (s : State) (a : Agent) : s.dropOrphan a = { s with
    fetch := if a = .command ∧ s.requests.command = false then none else s.fetch
    reportWrite := if a = .report ∧ s.requests.report = false then none else s.reportWrite } := by
  cases a with
  | command => cases h : s.requests.command <;> simp [State.dropOrphan, h]
  | report => cases h : s.requests.report <;> simp [State.dropOrphan, h]
  | log => simp [State.dropOrphan]

/-- A cut touches the store, what is presented and the media transaction (R158, R159). -/
theorem State.cutMedia_keeps (s : State) (ws : List WriteWord) :
    s.cutMedia ws = { s with
      store := (s.cutMedia ws).store, presented := (s.cutMedia ws).presented, media := (s.cutMedia ws).media } := by
  unfold State.cutMedia
  split
  · rfl
  · dsimp only
    split
    · unfold State.passPlain
      split <;> rfl
    · rfl

/-! ## The opens of the rings, case by case -/

/-- A fetch at an open of the command ring: withdrawn where it waits, orphaned where it holds the port (R11). -/
theorem State.orphanFetch_cases (s : State) :
    (s.requests.command = true ∧ s.orphanFetch = { s.withdraw .command with fetch := none }) ∨
      (∃ a d o, s.port = .house .command a d o ∧ s.orphanFetch = { s with port := .house .command a d true }) ∨
      s.orphanFetch = s := by
  unfold State.orphanFetch
  split
  · exact .inl ⟨‹_›, rfl⟩
  · split
    · exact .inr (.inl ⟨_, _, _, ‹_›, rfl⟩)
    · exact .inr (.inr rfl)

/-- A report write at an open of the report ring: withdrawn where it waits, orphaned where it holds the port (R11, R147). -/
theorem State.orphanReport_cases (s : State) :
    (∃ w, s.requests.report = true ∧ s.reportWrite = some w ∧
        s.orphanReport = { (s.withdraw .report).placeFirst w.report with reportWrite := none }) ∨
      (∃ a d w, s.port = .house .report a d false ∧ s.reportWrite = some w ∧
        s.orphanReport =
          { s with port := .house .report a d true, reportWrite := some { w with ended := true }, overflow := true }) ∨
      s.orphanReport = s := by
  unfold State.orphanReport
  split
  · exact .inr (.inr rfl)
  · split
    · exact .inl ⟨_, ‹_›, ‹_›, rfl⟩
    · split
      · exact .inr (.inl ⟨_, _, _, ‹_›, ‹_›, rfl⟩)
      · exact .inr (.inr rfl)

/-- A report placed first leaves the view of the memory path, and the queue within 16. -/
theorem State.placeFirst_quiet (s : State) (r : Report) : Quiet s (s.placeFirst r) := by
  refine ⟨by simp [State.pathView], by simp [State.rangeView, funext_iff, State.slotKeys], fun ⟨hr, hf⟩ => ⟨?_, by simpa⟩⟩
  rcases s.placeFirst_cases r with ⟨hl, h⟩ | ⟨hl, h⟩ <;> rw [h]
  · simpa using hl
  · simp
    omega

theorem State.placeRestartReports_quiet (s : State) : Quiet s s.placeRestartReports := by
  have h1 : Quiet s
      (if s.liftMark && !s.underWay Report.isLiftRestart then s.placeFirst ⟨.event (.liftEnded .restart), false⟩ else s) :=
    .ite (fun _ => s.placeFirst_quiet _) (fun _ => .refl s)
  exact .ite (fun _ => h1.trans (State.placeFirst_quiet _ _)) (fun _ => h1)

/-- The report ring's open: the write in progress is seen to, the ring is replaced, quiet work follows, and the attention line is
refreshed (R10, R11, R149, R151). -/
theorem State.openReportRing_cases (s : State) :
    ∃ u, Quiet { s.orphanReport with
        reportRing := s.openedRing s.anchor.reportBase s.anchor.reportSlots s.commandRing } u ∧
      s.openReportRing = u.refreshAttention := by
  unfold State.openReportRing
  dsimp only
  split
  · exact ⟨_, State.placeRestartReports_quiet _, rfl⟩
  · exact ⟨_, .refl _, rfl⟩

/-! ## The lanes' moves leave the memory path -/

theorem State.joinSlot_path (s : State) (service : Byte) :
    (s.joinSlot service).pathView = s.pathView ∧ (QueueSafe s → QueueSafe (s.joinSlot service)) := by
  unfold State.joinSlot
  split
  · exact ⟨rfl, id⟩
  · split <;> exact ⟨rfl, id⟩

theorem State.leaveSlot_path (s : State) (service : Byte) :
    (s.leaveSlot service).pathView = s.pathView ∧ (QueueSafe s → QueueSafe (s.leaveSlot service)) := by
  unfold State.leaveSlot
  split <;> exact ⟨rfl, id⟩

/-- A transaction that finds its binding ended keeps its phase. -/
theorem MediaTxn.unbindLane_phase (t : MediaTxn) (n : Fin 4) : (t.unbindLane n).phase = t.phase := by
  unfold MediaTxn.unbindLane
  split <;> rfl

theorem State.unbindLane_path (s : State) (n : Fin 4) (b : Binding) :
    (s.unbindLane n b).pathView = s.pathView ∧ (QueueSafe s → QueueSafe (s.unbindLane n b)) := by
  obtain ⟨hp, hq⟩ := State.leaveSlot_path (s.setLane n Lane.unbound) b.service
  refine ⟨?_, hq⟩
  have hphase : (s.media.map (MediaTxn.unbindLane · n)).map MediaTxn.phase = s.media.map MediaTxn.phase := by
    simp [Function.comp_def, MediaTxn.unbindLane_phase]
  exact (congrArg (fun v : PathView => { v with phase := (s.media.map (MediaTxn.unbindLane · n)).map MediaTxn.phase }) hp).trans
    (by rw [hphase])

theorem LaneMove.path {s t : State} (h : LaneMove s t) : t.pathView = s.pathView ∧ (QueueSafe s → QueueSafe t) := by
  cases h with
  | update n l hb hf => exact ⟨rfl, id⟩
  | bind n b => exact State.joinSlot_path (s.setLane n (Lane.fresh b)) b.service
  | unbind n b => exact s.unbindLane_path n b
  | region base slots =>
    rcases s.runLogRegion_cases base slots with ⟨r, -, h⟩ | ⟨-, -, h⟩ | ⟨r, -, -, h⟩ <;> rw [h] <;> exact ⟨rfl, id⟩

/-- What rests on the path view and the queues is kept by every step once the port's moves, the opens and the clearings keep
it. -/
theorem keptByStep_of_path {safe : State → Prop}
    (hview : ∀ {s t}, t.pathView = s.pathView → (QueueSafe s → QueueSafe t) → safe s → safe t)
    (hport : ∀ {s t}, PortMove s t → safe s → safe t) (hcommand : ∀ s, safe s → safe s.openCommandRing)
    (hreport : ∀ s, safe s → safe s.openReportRing) (hclear : ∀ {s t}, Cleared s t → safe s → safe t) : KeptByStep safe := by
  refine keptByStep_of_move fun {s t} hm hs => ?_
  cases hm with
  | quiet h => exact hview h.path h.queues hs
  | port h => exact hport h hs
  | lane h => exact hview h.path.1 h.path.2 hs
  | openCommandRing => exact hcommand s hs
  | openReportRing => exact hreport s hs
  | cleared h => exact hclear h hs

/-! ## The store keeps its canonical form -/

theorem StoreSafe.congr {s t : State} (h : t.store = s.store) (hs : StoreSafe s) : StoreSafe t :=
  (congrArg (fun m => Memory.wf m = true) h).mpr hs

theorem StoreSafe.handOver {s : State} (h : StoreSafe s) : StoreSafe s.handOver := h.congr s.handOver_store

theorem StoreSafe.request (a : Agent) {s : State} (h : StoreSafe s) : StoreSafe (s.request a) := h.congr (s.request_store a)

theorem StoreSafe.requestMedia {s : State} (h : StoreSafe s) : StoreSafe s.requestMedia := h.congr s.requestMedia_store

theorem State.houseWrite_storeSafe {s : State} (h : StoreSafe s) (addr : Nat) (data : List Word) :
    StoreSafe (s.houseWrite addr data) := Memory.wf_writeWords _ s.store addr h

theorem PortMove.keeps_store {s t : State} (h : PortMove s t) (hs : StoreSafe s) : StoreSafe t := by
  cases h with
  | commandPhase h =>
    rcases State.takeCommandPhase_some h with ⟨-, rfl⟩ | ⟨-, rfl⟩
    · exact StoreSafe.requestMedia hs
    · exact hs
  | complete h =>
    obtain ⟨-, -, m, u, -, -, hu, rfl⟩ := State.completeMedia_some h
    exact StoreSafe.handOver ((State.lastWords_some hu).2 hs)
  | resume h =>
    obtain ⟨m, -, -, rfl⟩ := State.resumeMedia_some h
    exact StoreSafe.requestMedia hs
  | rewrite m h => exact h hs
  | reportTail w => exact hs
  | beginFetch h =>
    obtain ⟨-, rfl⟩ := State.beginFetch_some h
    exact StoreSafe.request .command hs
  | finishFetch h tag code a => exact hs.congr (by simp)
  | takeReport h =>
    obtain ⟨r, rest, -, -, rfl | ⟨w, rfl⟩⟩ := State.takeReport_some h
    · exact hs
    · exact StoreSafe.request .report hs
  | completeReport h =>
    obtain ⟨addr, data, w, -, -, rfl⟩ := State.completeReport_some h
    exact StoreSafe.handOver (State.houseWrite_storeSafe hs addr data)
  | beginLog h =>
    obtain ⟨-, w, rfl⟩ := State.beginLog_some h
    exact StoreSafe.request .log hs
  | completeLog h =>
    obtain ⟨addr, data, w, list, -, -, rfl⟩ := State.completeLog_some h
    have hk := State.houseWrite_storeSafe hs addr data
    exact StoreSafe.handOver (hk.congr (congrArg PathView.store (State.advanceRegion_quiet_path _).1))
  | discard h =>
    obtain ⟨a, addr, data, -, rfl⟩ := State.discardHouse_some h
    rw [State.dropOrphan_eq]
    exact StoreSafe.handOver (State.houseWrite_storeSafe hs addr data)
  | orphanEnds h => exact hs.handOver
  | lineHolds words => exact s.cutMedia_wf words hs

theorem State.orphanFetch_store (s : State) : s.orphanFetch.store = s.store := by
  rcases s.orphanFetch_cases with ⟨-, h⟩ | ⟨a, d, o, -, h⟩ | h
  · rw [h]
    rfl
  · rw [h]
  · rw [h]

theorem State.orphanReport_store (s : State) : s.orphanReport.store = s.store := by
  rcases s.orphanReport_cases with ⟨w, -, -, h⟩ | ⟨a, d, w, -, -, h⟩ | h
  · simp [h]
  · rw [h]
  · rw [h]

theorem storeSafe_keptByStep : KeptByStep StoreSafe := by
  refine keptByStep_of_path (fun h _ => .congr (congrArg PathView.store h)) PortMove.keeps_store
    (fun s => .congr s.orphanFetch_store) (fun s hs => ?_) (fun h => h.store)
  obtain ⟨u, hu, h⟩ := s.openReportRing_cases
  rw [h]
  exact hs.congr ((congrArg PathView.store hu.path).trans s.orphanReport_store)

/-! ## The attention line stands on its condition -/

/-- What the attention line rests on stays. -/
theorem AttentionSafe.congr {s t : State} (ha : t.attention = s.attention) (hr : t.reportRing = s.reportRing)
    (ht : t.anchor.reportTail = s.anchor.reportTail) (hs : AttentionSafe s) : AttentionSafe t := by
  unfold AttentionSafe State.attentionDue
  rw [ha, hr, ht]
  exact hs

theorem AttentionSafe.of_pathView {s t : State} (h : t.pathView = s.pathView) (hs : AttentionSafe s) : AttentionSafe t :=
  hs.congr (congrArg PathView.attention h) (congrArg PathView.reportRing h) (congrArg PathView.reportTail h)

theorem AttentionSafe.handOver {s : State} (h : AttentionSafe s) : AttentionSafe s.handOver :=
  h.congr (by simp) (by simp) (by simp)

theorem AttentionSafe.request (a : Agent) {s : State} (h : AttentionSafe s) : AttentionSafe (s.request a) :=
  h.congr (by simp) (by simp) (by simp)

theorem AttentionSafe.requestMedia {s : State} (h : AttentionSafe s) : AttentionSafe s.requestMedia :=
  h.congr (by simp) (by simp) (by simp)

theorem State.refreshAttention_safe (s : State) : AttentionSafe s.refreshAttention := rfl

theorem PortMove.keeps_attention {s t : State} (h : PortMove s t) (hs : AttentionSafe s) : AttentionSafe t := by
  cases h with
  | commandPhase h =>
    rcases State.takeCommandPhase_some h with ⟨-, rfl⟩ | ⟨-, rfl⟩
    · exact AttentionSafe.requestMedia hs
    · exact hs
  | complete h =>
    obtain ⟨-, -, m, u, -, -, hu, rfl⟩ := State.completeMedia_some h
    rw [(State.lastWords_some hu).1]
    exact AttentionSafe.handOver hs
  | resume h =>
    obtain ⟨m, -, -, rfl⟩ := State.resumeMedia_some h
    exact AttentionSafe.requestMedia hs
  | rewrite m h => exact hs
  | reportTail w => exact State.refreshAttention_safe _
  | beginFetch h =>
    obtain ⟨-, rfl⟩ := State.beginFetch_some h
    exact AttentionSafe.request .command hs
  | finishFetch h tag code a => exact hs.congr (by simp) (by simp) (by simp)
  | takeReport h =>
    obtain ⟨r, rest, -, -, rfl | ⟨w, rfl⟩⟩ := State.takeReport_some h
    · exact hs
    · exact AttentionSafe.request .report hs
  | completeReport h =>
    obtain ⟨addr, data, w, -, -, rfl⟩ := State.completeReport_some h
    exact (State.refreshAttention_safe _).handOver
  | beginLog h =>
    obtain ⟨-, w, rfl⟩ := State.beginLog_some h
    exact AttentionSafe.request .log hs
  | completeLog h =>
    obtain ⟨addr, data, w, list, -, -, rfl⟩ := State.completeLog_some h
    have hv := (State.advanceRegion_quiet_path
      { s.houseWrite addr data with charges := { s.charges with list := list, write := none } }).1
    exact AttentionSafe.handOver (AttentionSafe.of_pathView hv hs)
  | discard h =>
    obtain ⟨a, addr, data, -, rfl⟩ := State.discardHouse_some h
    rw [State.dropOrphan_eq]
    exact AttentionSafe.handOver hs
  | orphanEnds h => exact hs.handOver
  | lineHolds words =>
    unfold State.lineHolds
    rw [s.cutMedia_keeps words]
    exact hs

theorem attentionSafe_keptByStep : KeptByStep AttentionSafe := by
  refine keptByStep_of_path
    (fun h _ => .of_pathView h)
    PortMove.keeps_attention (fun s hs => ?_) (fun s _ => ?_) (fun h _ => ?_)
  · have hk : AttentionSafe s.orphanFetch := by
      rcases s.orphanFetch_cases with ⟨-, h⟩ | ⟨a, d, o, -, h⟩ | h <;> rw [h] <;> exact hs
    exact hk
  · obtain ⟨u, -, h⟩ := s.openReportRing_cases
    rw [h]
    exact u.refreshAttention_safe
  · simp [AttentionSafe, State.attentionDue, h.attention, h.reportRing]

/-! ## The pending queue and the refused list stay within 16 -/

theorem QueueSafe.congr {s t : State} (hr : t.reports = s.reports) (hf : t.refused = s.refused) (hs : QueueSafe s) :
    QueueSafe t := by
  unfold QueueSafe
  rw [hr, hf]
  exact hs

theorem QueueSafe.handOver {s : State} (h : QueueSafe s) : QueueSafe s.handOver := h.congr (by simp) (by simp)

theorem QueueSafe.request (a : Agent) {s : State} (h : QueueSafe s) : QueueSafe (s.request a) := h.congr (by simp) (by simp)

theorem QueueSafe.requestMedia {s : State} (h : QueueSafe s) : QueueSafe s.requestMedia := h.congr (by simp) (by simp)

theorem State.finishFetch_queueSafe {s : State} (h : QueueSafe s) (tag : Word) (code : Byte) (a : Answer) :
    QueueSafe (s.finishFetch tag code a) :=
  QueueSafe.congr (s := s.hand (.result tag code a.1 a.2)) (by simp [State.finishFetch]) (by simp) ((s.hand_quiet _).queues h)

theorem PortMove.keeps_queues {s t : State} (h : PortMove s t) (hs : QueueSafe s) : QueueSafe t := by
  cases h with
  | commandPhase h =>
    rcases State.takeCommandPhase_some h with ⟨-, rfl⟩ | ⟨-, rfl⟩
    · exact QueueSafe.requestMedia hs
    · exact hs
  | complete h =>
    obtain ⟨-, -, m, u, -, -, hu, rfl⟩ := State.completeMedia_some h
    rw [(State.lastWords_some hu).1]
    exact QueueSafe.handOver hs
  | resume h =>
    obtain ⟨m, -, -, rfl⟩ := State.resumeMedia_some h
    exact QueueSafe.requestMedia hs
  | rewrite m h => exact hs
  | reportTail w => exact hs
  | beginFetch h =>
    obtain ⟨-, rfl⟩ := State.beginFetch_some h
    exact QueueSafe.request .command hs
  | finishFetch h tag code a => exact State.finishFetch_queueSafe hs tag code a
  | takeReport h =>
    obtain ⟨r, rest, hr, -, rfl | ⟨w, rfl⟩⟩ := State.takeReport_some h
    · exact ⟨by simp, hs.2⟩
    · have hl := hs.1
      rw [hr, List.length_cons] at hl
      exact QueueSafe.request .report ⟨Nat.le_of_succ_le hl, hs.2⟩
  | completeReport h =>
    obtain ⟨addr, data, w, -, -, rfl⟩ := State.completeReport_some h
    exact QueueSafe.handOver hs
  | beginLog h =>
    obtain ⟨-, w, rfl⟩ := State.beginLog_some h
    exact QueueSafe.request .log hs
  | completeLog h =>
    obtain ⟨addr, data, w, list, -, -, rfl⟩ := State.completeLog_some h
    have hk := (State.advanceRegion_quiet_path
      { s.houseWrite addr data with charges := { s.charges with list := list, write := none } }).2.2.2 hs
    exact QueueSafe.handOver hk
  | discard h =>
    obtain ⟨a, addr, data, -, rfl⟩ := State.discardHouse_some h
    rw [State.dropOrphan_eq]
    exact QueueSafe.handOver hs
  | orphanEnds h => exact hs.handOver
  | lineHolds words =>
    unfold State.lineHolds
    rw [s.cutMedia_keeps words]
    exact hs

theorem State.orphanFetch_queueSafe {s : State} (h : QueueSafe s) : QueueSafe s.orphanFetch := by
  rcases s.orphanFetch_cases with ⟨-, e⟩ | ⟨a, d, o, -, e⟩ | e <;> rw [e] <;> exact h

theorem State.orphanReport_queueSafe {s : State} (h : QueueSafe s) : QueueSafe s.orphanReport := by
  rcases s.orphanReport_cases with ⟨w, -, -, e⟩ | ⟨a, d, w, -, -, e⟩ | e <;> rw [e]
  · exact ((s.withdraw .report).placeFirst_quiet w.report).queues h
  · exact h
  · exact h

theorem queueSafe_keptByStep : KeptByStep QueueSafe := by
  refine keptByStep_of_path (fun _ h => h) PortMove.keeps_queues (fun s => State.orphanFetch_queueSafe) (fun s hs => ?_)
    (fun h _ => ?_)
  · obtain ⟨u, hu, h⟩ := s.openReportRing_cases
    rw [h]
    exact hu.queues (State.orphanReport_queueSafe hs)
  · simp [QueueSafe, h.reports, h.refused]

end Sys2Proof.Machine
end

section
namespace Sys2Proof.Machine

/-! ## MEDIA holds the store port in a data phase alone -/

/-- The media transaction waits exactly in its waiting phase. -/
theorem State.mediaWaits_iff (s : State) : s.mediaWaits = true ↔ s.media.map MediaTxn.phase = some .waiting := by
  unfold State.mediaWaits
  cases s.media <;> simp

/-- No media transaction is in its data phase, and no command phase stands without one in flight. -/
def MediaIdle (s : State) : Prop :=
  s.media.map MediaTxn.phase ≠ some .data ∧ (s.nextPhase.isSome = true → s.media.isSome = true)

theorem MediaIdle.congr {s t : State} (hm : t.media = s.media) (hn : t.nextPhase = s.nextPhase) (h : MediaIdle s) :
    MediaIdle t := by
  unfold MediaIdle
  rw [hm, hn]
  exact h

theorem MediaIdle.of_pathView {s t : State} (hv : t.pathView = s.pathView) (h : MediaIdle s) : MediaIdle t := by
  have hp : t.media.map MediaTxn.phase = s.media.map MediaTxn.phase := congrArg PathView.phase hv
  have hn : t.nextPhase.isSome = s.nextPhase.isSome := congrArg PathView.behind hv
  have hm : t.media.isSome = s.media.isSome := by simpa using congrArg Option.isSome hp
  unfold MediaIdle
  rw [hp, hn, hm]
  exact h

/-- While MEDIA does not hold the store port, it is idle. -/
theorem PortSafe.mediaIdle {s : State} (h : PortSafe s) (hp : s.port ≠ .media) : MediaIdle s :=
  ⟨fun hd => hp (h.1.mpr hd), h.2⟩

/-- A port that MEDIA does not hold is safe while MEDIA is idle. -/
theorem MediaIdle.portSafe {s : State} (h : MediaIdle s) (hp : s.port ≠ .media) : PortSafe s := PortSafe.of_idle hp h.1 h.2

/-- A grant to MEDIA of a transaction in flight starts its data phase. -/
theorem State.grantMedia_portSafe {s : State} (h : s.media.isSome = true) : PortSafe s.grantMedia := by
  obtain ⟨m, hm⟩ := Option.isSome_iff_exists.mp h
  simp [PortSafe, State.grantMedia, hm]

theorem State.media_of_mediaWaits {s : State} (h : s.mediaWaits = true) : s.media.isSome = true := by
  simpa using congrArg Option.isSome ((s.mediaWaits_iff).mp h)

/-- An idle port is handed on safely (R13). -/
theorem MediaIdle.handOver {s : State} (h : MediaIdle s) : PortSafe s.handOver := by
  rcases s.handOver_cases with ⟨-, e⟩ | ⟨-, hm, -, e⟩ | ⟨a, -, hm, -, -, e⟩ | ⟨a, -, -, -, e⟩ | ⟨-, -, -, e⟩ <;> rw [e]
  · exact MediaIdle.portSafe h (by simp)
  · exact State.grantMedia_portSafe (State.media_of_mediaWaits hm)
  · exact State.grantMedia_portSafe (State.media_of_mediaWaits hm)
  · exact MediaIdle.portSafe h (by simp [State.grantHouse])
  · exact MediaIdle.portSafe h (by simp)

/-- The transaction that asks for the store port waits, or is granted a free port. -/
theorem State.requestMedia_portSafe {s : State} (h : MediaIdle s) (hm : s.media.isSome = true) (hp : s.port ≠ .media) :
    PortSafe s.requestMedia := by
  rcases s.requestMedia_cases with ⟨-, -, e⟩ | ⟨-, e⟩ <;> rw [e]
  · exact State.grantMedia_portSafe hm
  · exact h.portSafe hp

/-- A house request leaves MEDIA's hold of the port as it was. -/
theorem PortSafe.request (a : Agent) {s : State} (h : PortSafe s) : PortSafe (s.request a) := by
  refine h.congr ?_ (by simp) (by simp)
  rcases s.request_cases a with ⟨hp, -, e⟩ | ⟨-, e⟩ <;> rw [e]
  simp [State.grantHouse, hp]

/-- A transaction just taken, if any, waits. -/
theorem State.nextMedia_idle (s : State) : MediaIdle s.nextMedia := by
  refine ⟨?_, by simp⟩
  simp [Function.comp_def, State.newTxn]

/-- Under the reset line MEDIA does not hold the store port (R159). -/
theorem Port.heldByLine_ne_media (p : Port) : p.heldByLine ≠ .media := by
  cases p <;> simp [Port.heldByLine, Port.orphaned]

theorem PortMove.keeps_port {s t : State} (h : PortMove s t) (hs : PortSafe s) : PortSafe t := by
  cases h with
  | commandPhase h =>
    rcases State.takeCommandPhase_some h with ⟨hm, rfl⟩ | ⟨hm, rfl⟩
    · have hp : s.port ≠ .media := fun hp => by simpa [hm] using hs.1.mp hp
      exact State.requestMedia_portSafe ⟨by simp [State.newTxn], by simp⟩ (by simp) hp
    · exact ⟨hs.1, fun _ => hm⟩
  | complete h =>
    obtain ⟨-, -, m, u, -, -, -, rfl⟩ := State.completeMedia_some h
    exact u.nextMedia_idle.handOver
  | resume h =>
    obtain ⟨m, hm, hh, rfl⟩ := State.resumeMedia_some h
    have hp : s.port ≠ .media := fun hp => by simpa [hm, hh] using hs.1.mp hp
    exact State.requestMedia_portSafe ⟨by simp, by simp⟩ (by simp) hp
  | rewrite m h => exact hs
  | reportTail w => exact hs
  | beginFetch h =>
    obtain ⟨-, rfl⟩ := State.beginFetch_some h
    exact PortSafe.request .command hs
  | finishFetch h tag code a =>
    exact MediaIdle.handOver ((hs.mediaIdle (by simp [h])).congr (by simp) (by simp))
  | takeReport h =>
    obtain ⟨r, rest, -, -, rfl | ⟨w, rfl⟩⟩ := State.takeReport_some h
    · exact hs
    · exact PortSafe.request .report hs
  | completeReport h =>
    obtain ⟨addr, data, w, hp, -, rfl⟩ := State.completeReport_some h
    exact MediaIdle.handOver (hs.mediaIdle (by simp [hp]))
  | beginLog h =>
    obtain ⟨-, w, rfl⟩ := State.beginLog_some h
    exact PortSafe.request .log hs
  | completeLog h =>
    obtain ⟨addr, data, w, list, hp, -, rfl⟩ := State.completeLog_some h
    have hk : MediaIdle { s.houseWrite addr data with charges := { s.charges with list := list, write := none } } :=
      hs.mediaIdle (by simp [hp])
    exact MediaIdle.handOver (hk.of_pathView (State.advanceRegion_quiet_path _).1)
  | discard h =>
    obtain ⟨a, addr, data, hp, rfl⟩ := State.discardHouse_some h
    rw [State.dropOrphan_eq]
    exact MediaIdle.handOver (hs.mediaIdle (by simp [hp]))
  | orphanEnds h => exact (hs.mediaIdle (by simp [h])).handOver
  | lineHolds words =>
    exact PortSafe.of_idle (Port.heldByLine_ne_media s.port) (s.cutMedia_phase words) (by simp [State.lineHolds])

theorem PortSafe.of_pathView {s t : State} (hv : t.pathView = s.pathView) : PortSafe s → PortSafe t :=
  .congr (by rw [State.port_of_pathView hv]) (congrArg PathView.phase hv) (congrArg PathView.behind hv)

theorem State.orphanFetch_portSafe {s : State} (h : PortSafe s) : PortSafe s.orphanFetch := by
  rcases s.orphanFetch_cases with ⟨-, e⟩ | ⟨a, d, o, hp, e⟩ | e <;> rw [e]
  · exact h
  · exact PortSafe.congr (s := s) (by simp [hp]) rfl rfl h
  · exact h

theorem State.orphanReport_portSafe {s : State} (h : PortSafe s) : PortSafe s.orphanReport := by
  rcases s.orphanReport_cases with ⟨w, -, -, e⟩ | ⟨a, d, w, hp, -, e⟩ | e <;> rw [e]
  · exact h.congr (by simp) (by simp) (by simp)
  · exact PortSafe.congr (s := s) (by simp [hp]) rfl rfl h
  · exact h

theorem portSafe_keptByStep : KeptByStep PortSafe := by
  refine keptByStep_of_path (fun hv _ => .of_pathView hv) PortMove.keeps_port (fun s => State.orphanFetch_portSafe)
    (fun s hs => ?_) (fun h => h.media)
  obtain ⟨u, hu, h⟩ := s.openReportRing_cases
  rw [h]
  have hsafe : PortSafe u := PortSafe.of_pathView hu.path (State.orphanReport_portSafe hs)
  exact hsafe

/-! ## The arbiter's items (R13) -/

/-- What the arbiter's queue keeps, whoever holds the store port: the first four parts of ArbiterSafe. -/
def WaitsSafe (s : State) : Prop :=
  s.waitCount ≤ 4 ∧ (s.requests.any = false → s.waitCount = 0) ∧ s.rotation.Perm Agent.restartOrder ∧
    ∀ a, s.requests.has a = true → s.inWork a = true

theorem arbiterSafe_iff (s : State) : ArbiterSafe s ↔ WaitsSafe s ∧ s.holderSafe = true := by
  simp [ArbiterSafe, WaitsSafe, and_assoc]

/-- The holder's part of ArbiterSafe, spelled out. -/
theorem State.holderSafe_iff (s : State) : s.holderSafe = true ↔
    ∀ a addr data, s.port = .house a addr data false → s.inWork a = true ∧ s.requests.has a = false := by
  unfold State.holderSafe
  split
  · simp [*]
  · rename_i h
    simp only [true_iff]
    intro a addr data hp
    exact absurd hp (h a addr data)

/-- A request moved to the end of the rotation order leaves it an order of the three agents (R13). -/
theorem toEnd_perm {order : List Agent} (h : order.Perm Agent.restartOrder) (a : Agent) :
    (toEnd order a).Perm Agent.restartOrder := by
  have hr : ∀ b : Agent, (toEnd Agent.restartOrder b).Perm Agent.restartOrder := by
    intro b
    cases b <;> decide
  exact (List.Perm.append_right [a] (h.filter _)).trans (hr a)

/-- Waiting requests stay safe when work begins, or ends of an agent that does not wait. -/
theorem WaitsSafe.congr {s t : State} (h : WaitsSafe s) (hw : t.waitCount = s.waitCount) (hr : t.requests = s.requests)
    (ho : t.rotation = s.rotation) (hi : ∀ a, s.requests.has a = true → s.inWork a = true → t.inWork a = true) :
    WaitsSafe t := by
  obtain ⟨hcount, hnone, hperm, hwork⟩ := h
  unfold WaitsSafe
  rw [hw, hr, ho]
  exact ⟨hcount, hnone, hperm, fun a ha => hi a ha (hwork a ha)⟩

/-- A house grant at which the wait count returns to 0, or of an agent that did not wait (R13). -/
theorem WaitsSafe.grantHouse {s : State} (h : WaitsSafe s) (a : Agent) (hwork : s.inWork a = true) (n : Nat)
    (hn : n ≤ s.waitCount) (hz : (s.requests.put a false).any = false → n = 0) :
    ArbiterSafe { s.grantHouse a with waitCount := n } := by
  obtain ⟨hcount, -, hperm, hwaits⟩ := h
  refine (arbiterSafe_iff _).mpr ⟨⟨hn.trans hcount, hz, toEnd_perm hperm a, fun b hb => ?_⟩, ?_⟩
  · have hb' : s.requests.has b = true := by
      have := (s.requests.has_put a b false).symm.trans hb
      split at this
      · contradiction
      · exact this
    cases b <;> exact hwaits _ hb'
  · refine (State.holderSafe_iff _).mpr fun b addr data hp => ?_
    obtain ⟨rfl, -⟩ : a = b ∧ _ := by simpa [State.grantHouse] using hp
    exact ⟨by cases a <;> exact hwork, by simp [State.grantHouse, Requests.has_put]⟩

/-- The arbiter's decision on a freed port keeps its items (R13). -/
theorem WaitsSafe.handOver {s : State} (h : WaitsSafe s) : ArbiterSafe s.handOver := by
  rcases s.handOver_cases with ⟨-, e⟩ | ⟨-, -, -, e⟩ | ⟨a, -, -, hf, hc, e⟩ | ⟨a, -, -, hf, e⟩ | ⟨-, -, -, e⟩ <;> rw [e]
  · exact (arbiterSafe_iff _).mpr ⟨h, rfl⟩
  · exact (arbiterSafe_iff _).mpr ⟨h, rfl⟩
  · refine (arbiterSafe_iff _).mpr ⟨⟨hc, fun hnone => ?_, h.2.2.1, h.2.2.2⟩, rfl⟩
    have hany : s.requests.any = true := s.requests.any_iff.mpr ⟨a, s.firstWaiting_has a hf⟩
    exact absurd hany (by simpa using hnone)
  · exact h.grantHouse a (h.2.2.2 a (s.firstWaiting_has a hf)) 0 (Nat.zero_le _) (fun _ => rfl)
  · exact (arbiterSafe_iff _).mpr ⟨h, rfl⟩

/-- A request of an agent whose work has just begun, while it neither waits nor holds the port (R13). -/
theorem ArbiterSafe.request {s : State} (h : ArbiterSafe s) (a : Agent) (hwork : s.inWork a = true)
    (hnew : s.requests.has a = false) (hport : ∀ addr data, s.port ≠ .house a addr data false) : ArbiterSafe (s.request a) := by
  obtain ⟨hw, hh⟩ := (arbiterSafe_iff s).mp h
  obtain ⟨hcount, hnone, hperm, hwaits⟩ := id hw
  rcases s.request_cases a with ⟨-, -, e⟩ | ⟨-, e⟩ <;> rw [e]
  · refine hw.grantHouse a hwork s.waitCount le_rfl fun hz => hnone ?_
    by_contra hany
    obtain ⟨b, hb⟩ := s.requests.any_iff.mp (by simpa using hany)
    have hne : b ≠ a := fun hba => by simp [hba, hnew] at hb
    have hput : (s.requests.put a false).any = true := (Requests.any_iff _).mpr ⟨b, by simp [Requests.has_put, hne, hb]⟩
    simp [hput] at hz
  · have hput : (s.requests.put a true).any = true := (Requests.any_iff _).mpr ⟨a, by simp [Requests.has_put]⟩
    refine (arbiterSafe_iff _).mpr ⟨⟨hcount, fun hz => absurd hput (by simpa using hz), hperm, fun b hb => ?_⟩, ?_⟩
    · have hb' : (if b = a then true else s.requests.has b) = true := (s.requests.has_put a b true).symm.trans hb
      split at hb'
      · subst_vars
        cases b <;> exact hwork
      · have := hwaits b hb'
        cases b <;> exact this
    · refine (State.holderSafe_iff _).mpr fun b addr data hp => ?_
      obtain ⟨hin, hno⟩ := (State.holderSafe_iff s).mp hh b addr data hp
      have hne : b ≠ a := fun hba => hport addr data (hba ▸ hp)
      exact ⟨by cases b <;> exact hin, by simp [Requests.has_put, hne, hno]⟩

/-- An agent's work is in the path view. -/
theorem State.inWork_of_pathView {s t : State} (hv : t.pathView = s.pathView) (a : Agent) : t.inWork a = s.inWork a := by
  cases a with
  | command => exact congrArg PathView.fetching hv
  | report => exact congrArg PathView.reporting hv
  | log => exact congrArg PathView.logging hv

theorem WaitsSafe.of_pathView {s t : State} (hv : t.pathView = s.pathView) (h : WaitsSafe s) : WaitsSafe t :=
  h.congr (congrArg PathView.waitCount hv) (congrArg PathView.requests hv) (congrArg PathView.rotation hv)
    fun a _ hi => (State.inWork_of_pathView hv a).trans hi

theorem ArbiterSafe.of_pathView {s t : State} (hv : t.pathView = s.pathView) (h : ArbiterSafe s) : ArbiterSafe t := by
  obtain ⟨hw, hh⟩ := (arbiterSafe_iff s).mp h
  refine (arbiterSafe_iff t).mpr ⟨hw.of_pathView hv, (State.holderSafe_iff t).mpr fun a addr data hp => ?_⟩
  have hr : t.requests = s.requests := congrArg PathView.requests hv
  rw [State.inWork_of_pathView hv, hr]
  exact (State.holderSafe_iff s).mp hh a addr data ((State.port_of_pathView hv).symm.trans hp)

/-- A request for MEDIA leaves the house agents' items, and no house access comes to hold the port. -/
theorem ArbiterSafe.requestMedia {s : State} (h : ArbiterSafe s) : ArbiterSafe s.requestMedia := by
  rcases s.requestMedia_cases with ⟨-, -, e⟩ | ⟨-, e⟩ <;> rw [e]
  · exact (arbiterSafe_iff _).mpr ⟨((arbiterSafe_iff s).mp h).1, rfl⟩
  · exact h

/-- The agent whose access holds the port, unorphaned, has no request waiting (section 1.5). -/
theorem ArbiterSafe.holder_waits_not {s : State} (h : ArbiterSafe s) {a : Agent} {addr : Nat} {data : List Word}
    (hp : s.port = .house a addr data false) : s.requests.has a = false :=
  ((State.holderSafe_iff s).mp ((arbiterSafe_iff s).mp h).2 a addr data hp).2

/-- An agent without work in progress neither waits nor holds the port (section 1.5). -/
theorem ArbiterSafe.idle_agent {s : State} (h : ArbiterSafe s) {a : Agent} (ha : s.inWork a = false) :
    s.requests.has a = false ∧ ∀ addr data, s.port ≠ .house a addr data false := by
  obtain ⟨⟨-, -, -, hwaits⟩, hh⟩ := (arbiterSafe_iff s).mp h
  constructor
  · by_contra hr
    simp [hwaits a (by simpa using hr)] at ha
  · intro addr data hp
    simp [((State.holderSafe_iff s).mp hh a addr data hp).1] at ha

/-- The work of an agent that begins while it was idle: its request (R13). -/
theorem ArbiterSafe.begins {s u : State} {a : Agent} (h : ArbiterSafe s) (ha : s.inWork a = false) (hu : u.inWork a = true)
    (hport : u.port = s.port) (hw : u.waitCount = s.waitCount) (hr : u.requests = s.requests) (ho : u.rotation = s.rotation)
    (hi : ∀ b, s.inWork b = true → u.inWork b = true) : ArbiterSafe (u.request a) := by
  obtain ⟨hnew, hfree⟩ := h.idle_agent ha
  obtain ⟨hwaits, hh⟩ := (arbiterSafe_iff s).mp h
  have hsafe : ArbiterSafe u := by
    refine (arbiterSafe_iff u).mpr ⟨hwaits.congr hw hr ho fun b _ => hi b, (State.holderSafe_iff u).mpr fun b addr data hp => ?_⟩
    obtain ⟨hin, hno⟩ := (State.holderSafe_iff s).mp hh b addr data (hport ▸ hp)
    exact ⟨hi b hin, hr ▸ hno⟩
  exact hsafe.request a hu (hr ▸ hnew) fun addr data => hport ▸ hfree addr data

theorem PortMove.keeps_arbiter {s t : State} (h : PortMove s t) (hs : ArbiterSafe s) : ArbiterSafe t := by
  have hwaits := ((arbiterSafe_iff s).mp hs).1
  cases h with
  | commandPhase h =>
    rcases State.takeCommandPhase_some h with ⟨-, rfl⟩ | ⟨-, rfl⟩
    · exact ArbiterSafe.requestMedia hs
    · exact hs
  | complete h =>
    obtain ⟨-, -, m, u, -, -, hu, rfl⟩ := State.completeMedia_some h
    rw [(State.lastWords_some hu).1]
    exact WaitsSafe.handOver hwaits
  | resume h =>
    obtain ⟨m, -, -, rfl⟩ := State.resumeMedia_some h
    exact ArbiterSafe.requestMedia hs
  | rewrite m h => exact hs
  | reportTail w => exact hs
  | beginFetch h =>
    obtain ⟨hf, rfl⟩ := State.beginFetch_some h
    refine hs.begins (by simp [State.inWork, hf]) rfl rfl rfl rfl rfl fun b hb => ?_
    cases b with
    | command => rfl
    | report => exact hb
    | log => exact hb
  | finishFetch h tag code a =>
    have hno := hs.holder_waits_not h
    refine WaitsSafe.handOver (hwaits.congr (by simp) (by simp) (by simp) fun b hb hi => ?_)
    cases b with
    | command => simp [hno] at hb
    | report => simpa [State.inWork] using hi
    | log => simpa [State.inWork] using hi
  | takeReport h =>
    obtain ⟨r, rest, -, hw, rfl | ⟨w, rfl⟩⟩ := State.takeReport_some h
    · exact hs
    · refine hs.begins (by simp [State.inWork, hw]) rfl rfl rfl rfl rfl fun b hb => ?_
      cases b with
      | command => exact hb
      | report => rfl
      | log => exact hb
  | completeReport h =>
    obtain ⟨addr, data, w, hp, -, rfl⟩ := State.completeReport_some h
    have hno := hs.holder_waits_not hp
    refine WaitsSafe.handOver (hwaits.congr rfl rfl rfl fun b hb hi => ?_)
    cases b with
    | command => exact hi
    | report => simp [hno] at hb
    | log => exact hi
  | beginLog h =>
    obtain ⟨hw, w, rfl⟩ := State.beginLog_some h
    refine hs.begins (by simp [State.inWork, hw]) rfl rfl rfl rfl rfl fun b hb => ?_
    cases b with
    | command => exact hb
    | report => exact hb
    | log => rfl
  | completeLog h =>
    obtain ⟨addr, data, w, list, hp, -, rfl⟩ := State.completeLog_some h
    have hno := hs.holder_waits_not hp
    have hk : WaitsSafe { s.houseWrite addr data with charges := { s.charges with list := list, write := none } } := by
      refine hwaits.congr rfl rfl rfl fun b hb hi => ?_
      cases b with
      | command => exact hi
      | report => exact hi
      | log => simp [hno] at hb
    exact WaitsSafe.handOver (hk.of_pathView (State.advanceRegion_quiet_path _).1)
  | discard h =>
    obtain ⟨a, addr, data, -, rfl⟩ := State.discardHouse_some h
    rw [State.dropOrphan_eq]
    refine WaitsSafe.handOver (hwaits.congr rfl rfl rfl fun b hb hi => ?_)
    cases b with
    | command =>
      have hr : s.requests.command = true := hb
      simpa [State.inWork, hr] using hi
    | report =>
      have hr : s.requests.report = true := hb
      simpa [State.inWork, hr] using hi
    | log => exact hi
  | orphanEnds h => exact hwaits.handOver
  | lineHolds words =>
    have hhold : ∀ (u : State), ({ u with port := s.port.heldByLine } : State).holderSafe = true := by
      intro u
      cases hp : s.port <;> rfl
    unfold State.lineHolds
    rw [s.cutMedia_keeps words]
    exact (arbiterSafe_iff _).mpr ⟨hwaits, hhold _⟩

/-- A withdrawn request leaves the others as they are, and the wait count at 0 with none left (R13, R14). -/
theorem State.withdraw_waitsSafe {s t : State} (h : WaitsSafe s) (a : Agent) (hw : t.waitCount = (s.withdraw a).waitCount)
    (hr : t.requests = s.requests.put a false) (ho : t.rotation = s.rotation)
    (hi : ∀ b, b ≠ a → t.inWork b = s.inWork b) : WaitsSafe t := by
  obtain ⟨hcount, -, hperm, hwaits⟩ := h
  unfold WaitsSafe
  rw [hw, hr, ho]
  refine ⟨?_, fun hz => by simp [State.withdraw, hz], hperm, fun b hb => ?_⟩
  · simp only [State.withdraw]
    split
    · exact hcount
    · exact Nat.zero_le _
  · rw [Requests.has_put] at hb
    split at hb
    · contradiction
    · rw [hi b ‹_›]
      exact hwaits b hb

theorem State.orphanFetch_arbiterSafe {s : State} (h : ArbiterSafe s) : ArbiterSafe s.orphanFetch := by
  obtain ⟨hwaits, hhold⟩ := (arbiterSafe_iff s).mp h
  rcases s.orphanFetch_cases with ⟨hr, e⟩ | ⟨a, d, o, hp, e⟩ | e <;> rw [e]
  · refine (arbiterSafe_iff _).mpr ⟨State.withdraw_waitsSafe hwaits .command rfl rfl rfl fun b hb => ?_,
      (State.holderSafe_iff _).mpr fun b addr data hp => ?_⟩
    · cases b with
      | command => contradiction
      | report => rfl
      | log => rfl
    · obtain ⟨hin, hno⟩ := (State.holderSafe_iff s).mp hhold b addr data hp
      cases b with
      | command => simp [Requests.has, hr] at hno
      | report => exact ⟨hin, hno⟩
      | log => exact ⟨hin, hno⟩
  · exact (arbiterSafe_iff _).mpr ⟨hwaits, rfl⟩
  · exact h

theorem State.orphanReport_arbiterSafe {s : State} (h : ArbiterSafe s) : ArbiterSafe s.orphanReport := by
  obtain ⟨hwaits, hhold⟩ := (arbiterSafe_iff s).mp h
  rcases s.orphanReport_cases with ⟨w, hr, -, e⟩ | ⟨a, d, w, hp, -, e⟩ | e <;> rw [e]
  · refine (arbiterSafe_iff _).mpr ⟨State.withdraw_waitsSafe hwaits .report (by simp) (by simp) (by simp) fun b hb => ?_,
      (State.holderSafe_iff _).mpr fun b addr data hp => ?_⟩
    · cases b with
      | command => simp [State.inWork]
      | report => contradiction
      | log => simp [State.inWork]
    · obtain ⟨hin, hno⟩ := (State.holderSafe_iff s).mp hhold b addr data (by simpa using hp)
      cases b with
      | command => exact ⟨by simpa [State.inWork] using hin, by simpa [Requests.put, Requests.has] using hno⟩
      | report => simp [Requests.has, hr] at hno
      | log => exact ⟨by simpa [State.inWork] using hin, by simpa [Requests.put, Requests.has] using hno⟩
  · refine (arbiterSafe_iff _).mpr ⟨hwaits.congr rfl rfl rfl fun b _ hi => ?_, rfl⟩
    cases b with
    | command => exact hi
    | report => rfl
    | log => exact hi
  · exact h

theorem arbiterSafe_keptByStep : KeptByStep ArbiterSafe := by
  refine keptByStep_of_path (fun hv _ => .of_pathView hv) PortMove.keeps_arbiter (fun s => State.orphanFetch_arbiterSafe)
    (fun s hs => ?_) (fun {s t} h _ => ?_)
  · obtain ⟨u, hu, h⟩ := s.openReportRing_cases
    rw [h]
    have hsafe : ArbiterSafe u := ArbiterSafe.of_pathView hu.path (State.orphanReport_arbiterSafe hs)
    exact hsafe
  · refine (arbiterSafe_iff t).mpr ⟨?_, h.holder⟩
    unfold WaitsSafe
    rw [h.waitCount, h.requests, h.rotation]
    exact ⟨Nat.zero_le _, fun _ => rfl, .refl _, fun a ha => by cases a <;> simp [Requests.none, Requests.has] at ha⟩

end Sys2Proof.Machine

namespace Sys2Proof.Proofs

open Sys2Proof Sys2Proof.Machine

/-- Settles O56: each of the five invariants is kept by every move, and every step is a sequence of moves. -/
theorem stepsKeepStoreArbiterAndQueues : Obligations.StepsKeepStoreArbiterAndQueues :=
  ⟨storeSafe_keptByStep, portSafe_keptByStep, arbiterSafe_keptByStep, attentionSafe_keptByStep, queueSafe_keptByStep⟩

end Sys2Proof.Proofs
end

section
namespace Sys2Proof.Machine

/-! ## Moves that leave the lanes and the slots, and widen no range -/

/-- The lanes and the slots' keys stand, and no range of the store is new. -/
structure RangesKept (s t : State) : Prop where
  lanes : t.lanes = s.lanes
  slotKeys : t.slotKeys = s.slotKeys
  command : t.commandRing.extents.Sublist s.commandRing.extents
  report : t.reportRing.extents.Sublist s.reportRing.extents
  logs : (logExtents t.charges).Sublist (logExtents s.charges)

/-- Equal lists of ranges are one a sublist of the other. -/
theorem sublist_of_eq {a b : List Extent} (h : a = b) : a.Sublist b := h ▸ .refl a

theorem RangesKept.of_view {s t : State} (h : t.rangeView = s.rangeView) : RangesKept s t :=
  ⟨congrArg RangeView.lanes h, congrArg RangeView.slotKeys h, sublist_of_eq (congrArg RangeView.commandRange h),
    sublist_of_eq (congrArg RangeView.reportRange h), sublist_of_eq (congrArg RangeView.logRanges h)⟩

theorem RangesKept.of_eq {s t : State} (hl : t.lanes = s.lanes) (hs : t.slots = s.slots)
    (hc : t.commandRing.extents = s.commandRing.extents) (hr : t.reportRing.extents = s.reportRing.extents)
    (hg : t.charges = s.charges) : RangesKept s t :=
  ⟨hl, by unfold State.slotKeys; rw [hs], sublist_of_eq hc, sublist_of_eq hr, sublist_of_eq (by rw [hg])⟩

/-- A head's advance leaves the ring's bytes (R143, R146). -/
@[simp] theorem Ring.advance_extents (r : Ring) : r.advance.extents = r.extents := by
  cases r <;> rfl

/-- The region's advance gives up the current region or keeps both (R125). -/
theorem State.advanceRegion_logs (s : State) : (logExtents s.advanceRegion.charges).Sublist (logExtents s.charges) := by
  unfold State.advanceRegion
  split
  · exact .refl _
  · rename_i r hr
    split
    · simp only [State.raiseEvent_charges, logExtents, hr, Option.map_map]
      exact List.sublist_append_of_sublist_right (by simp [Function.comp_def, StagedRegion.toCurrent])
    · simp [logExtents, hr]

theorem State.advanceRegion_ranges (s : State) : RangesKept s s.advanceRegion := by
  obtain ⟨hp, hl, hk, -⟩ := s.advanceRegion_quiet_path
  have hring : s.advanceRegion.commandRing = s.commandRing := by
    unfold State.advanceRegion
    split
    · rfl
    · split <;> simp
  exact ⟨hl, hk, sublist_of_eq (by rw [hring]), sublist_of_eq (congrArg (Ring.extents ∘ PathView.reportRing) hp),
    s.advanceRegion_logs⟩

/-- Kept ranges after kept ranges, the later ones named first. -/
theorem RangesKept.after {s t u : State} (k : RangesKept t u) (h : RangesKept s t) : RangesKept s u :=
  ⟨k.lanes.trans h.lanes, k.slotKeys.trans h.slotKeys, k.command.trans h.command, k.report.trans h.report,
    k.logs.trans h.logs⟩

theorem State.handOver_ranges (s : State) : RangesKept s s.handOver :=
  .of_eq (by simp) (by simp) (by simp) (by simp) (by simp)

theorem State.request_ranges (s : State) (a : Agent) : RangesKept s (s.request a) :=
  .of_eq (by simp) (by simp) (by simp) (by simp) (by simp)

theorem State.requestMedia_ranges (s : State) : RangesKept s s.requestMedia :=
  .of_eq (by simp) (by simp) (by simp) (by simp) (by simp)

theorem PortMove.ranges {s t : State} (h : PortMove s t) : RangesKept s t := by
  cases h with
  | commandPhase h =>
    rcases State.takeCommandPhase_some h with ⟨-, rfl⟩ | ⟨-, rfl⟩
    · exact (State.requestMedia_ranges _).after (.of_view rfl)
    · exact .of_view rfl
  | complete h =>
    obtain ⟨-, -, m, u, -, -, hu, rfl⟩ := State.completeMedia_some h
    rw [(State.lastWords_some hu).1]
    exact (State.handOver_ranges _).after (.of_view rfl)
  | resume h =>
    obtain ⟨m, -, -, rfl⟩ := State.resumeMedia_some h
    exact (State.requestMedia_ranges _).after (.of_view rfl)
  | rewrite m h => exact .of_view rfl
  | reportTail w => exact .of_view rfl
  | beginFetch h =>
    obtain ⟨-, rfl⟩ := State.beginFetch_some h
    exact (State.request_ranges _ .command).after (.of_view rfl)
  | finishFetch h tag code a => exact .of_eq (by simp) (by simp) (by simp [State.finishFetch]) (by simp) (by simp)
  | takeReport h =>
    obtain ⟨r, rest, -, -, rfl | ⟨w, rfl⟩⟩ := State.takeReport_some h
    · exact .of_view rfl
    · exact (State.request_ranges _ .report).after (.of_view rfl)
  | completeReport h =>
    obtain ⟨addr, data, w, -, -, rfl⟩ := State.completeReport_some h
    exact .of_eq (by simp) (by simp) (by simp) (by simp) (by simp)
  | beginLog h =>
    obtain ⟨-, w, rfl⟩ := State.beginLog_some h
    exact (State.request_ranges _ .log).after (.of_view rfl)
  | completeLog h =>
    obtain ⟨addr, data, w, list, -, -, rfl⟩ := State.completeLog_some h
    have h1 : RangesKept s { s.houseWrite addr data with charges := { s.charges with list := list, write := none } } :=
      .of_view rfl
    exact (State.handOver_ranges _).after ((State.advanceRegion_ranges _).after h1)
  | discard h =>
    obtain ⟨a, addr, data, -, rfl⟩ := State.discardHouse_some h
    rw [State.dropOrphan_eq]
    exact (State.handOver_ranges _).after (.of_view rfl)
  | orphanEnds h => exact s.handOver_ranges
  | lineHolds words =>
    unfold State.lineHolds
    rw [s.cutMedia_keeps words]
    exact .of_view rfl

theorem State.orphanFetch_ranges (s : State) : RangesKept s s.orphanFetch := by
  rcases s.orphanFetch_cases with ⟨-, h⟩ | ⟨a, d, o, -, h⟩ | h <;> rw [h] <;> exact .of_view rfl

theorem State.orphanReport_ranges (s : State) : RangesKept s s.orphanReport := by
  rcases s.orphanReport_cases with ⟨w, -, -, h⟩ | ⟨a, d, w, -, -, h⟩ | h <;> rw [h]
  · exact .of_eq (by simp) (by simp) (by simp) (by simp) (by simp)
  · exact .of_view rfl
  · exact .of_view rfl

/-- The open of the command ring replaces that ring's range alone. -/
theorem State.openCommandRing_ranges (s : State) :
    s.openCommandRing.lanes = s.lanes ∧ s.openCommandRing.slotKeys = s.slotKeys ∧
      s.openCommandRing.commandRing = s.openedRing s.anchor.commandBase s.anchor.commandSlots s.reportRing ∧
      s.openCommandRing.reportRing.extents.Sublist s.reportRing.extents ∧
      (logExtents s.openCommandRing.charges).Sublist (logExtents s.charges) :=
  have h := s.orphanFetch_ranges
  ⟨h.lanes, h.slotKeys, rfl, h.report, h.logs⟩

/-- The open of the report ring replaces that ring's range alone. -/
theorem State.openReportRing_ranges (s : State) :
    s.openReportRing.lanes = s.lanes ∧ s.openReportRing.slotKeys = s.slotKeys ∧
      s.openReportRing.commandRing.extents.Sublist s.commandRing.extents ∧
      s.openReportRing.reportRing.extents = (s.openedRing s.anchor.reportBase s.anchor.reportSlots s.commandRing).extents ∧
      (logExtents s.openReportRing.charges).Sublist (logExtents s.charges) := by
  obtain ⟨u, hu, e⟩ := s.openReportRing_cases
  have h := s.orphanReport_ranges
  have k := RangesKept.of_view hu.ranges
  rw [e]
  exact ⟨k.lanes.trans h.lanes, k.slotKeys.trans h.slotKeys, k.command.trans h.command,
    congrArg RangeView.reportRange hu.ranges, k.logs.trans h.logs⟩

/-- What rests on the lanes and the slots' keys is kept by every step once the lanes' moves and the clearings keep it. -/
theorem keptByStep_of_lanes {safe : State → Prop}
    (hview : ∀ {s t}, t.lanes = s.lanes → t.slotKeys = s.slotKeys → safe s → safe t)
    (hlane : ∀ {s t}, LaneMove s t → safe s → safe t) (hclear : ∀ {s t}, Cleared s t → safe s → safe t) :
    KeptByStep safe := by
  refine keptByStep_of_move fun {s t} hm hs => ?_
  cases hm with
  | quiet h => exact hview (congrArg RangeView.lanes h.ranges) (congrArg RangeView.slotKeys h.ranges) hs
  | port h => exact hview h.ranges.lanes h.ranges.slotKeys hs
  | lane h => exact hlane h hs
  | openCommandRing => exact hview s.openCommandRing_ranges.1 s.openCommandRing_ranges.2.1 hs
  | openReportRing => exact hview s.openReportRing_ranges.1 s.openReportRing_ranges.2.1 hs
  | cleared h => exact hclear h hs

/-! ## What the lanes' moves do to lanes and slots -/

theorem State.joinSlot_lanes (s : State) (service : Byte) : (s.joinSlot service).lanes = s.lanes := by
  unfold State.joinSlot
  split
  · rfl
  · split <;> rfl

theorem State.leaveSlot_lanes (s : State) (service : Byte) : (s.leaveSlot service).lanes = s.lanes := by
  unfold State.leaveSlot
  split <;> rfl

theorem State.bindLane_lanes (s : State) (n : Fin 4) (b : Binding) : (s.bindLane n b).lanes = s.lanes.set n (Lane.fresh b) :=
  State.joinSlot_lanes _ _

theorem State.unbindLane_lanes (s : State) (n : Fin 4) (b : Binding) : (s.unbindLane n b).lanes = s.lanes.set n Lane.unbound :=
  State.leaveSlot_lanes _ _

theorem State.runLogRegion_lanes (s : State) (base slots : Nat) :
    (s.runLogRegion base slots).1.lanes = s.lanes ∧ (s.runLogRegion base slots).1.slots = s.slots := by
  rcases s.runLogRegion_cases base slots with ⟨r, -, h⟩ | ⟨-, -, h⟩ | ⟨r, -, -, h⟩ <;> rw [h] <;> exact ⟨rfl, rfl⟩

/-- The tests of BIND that a binding passed (R17). -/
theorem State.bindCheck_none {s : State} {n : Fin 4} {b : Binding} (h : s.bindCheck n b = none) :
    (s.lanes.get n).binding = none ∧ overlapsAny b.extent s.bindObstacles = false ∧
      (b.role = .main → s.mainTaken = false) ∧ b.slots ≤ s.freeEntries := by
  unfold State.bindCheck at h
  split at h
  · contradiction
  · rename_i hfree
    split at h
    · contradiction
    · rename_i hapart
      split at h
      · contradiction
      · rename_i hrole
        split at h
        · contradiction
        · rename_i hentries
          exact ⟨by simpa using hfree, (Bool.not_eq_true _).mp hapart,
            fun hm => (Bool.not_eq_true _).mp fun ht => hrole ⟨hm, ht⟩, not_lt.mp hentries⟩

/-! ## Sums over the four lanes -/

/-- Two values that agree but at one lane have sums that differ by what they have there. -/
theorem four_sum_update {f g : Fin 4 → Nat} (n : Fin 4) (h : ∀ m, m ≠ n → g m = f m) :
    (four.map g).sum + f n = (four.map f).sum + g n := by
  simp only [four, List.map_cons, List.map_nil, List.sum_cons, List.sum_nil]
  match n with
  | 0 => rw [h 1 (by decide), h 2 (by decide), h 3 (by decide)]; omega
  | 1 => rw [h 0 (by decide), h 2 (by decide), h 3 (by decide)]; omega
  | 2 => rw [h 0 (by decide), h 1 (by decide), h 3 (by decide)]; omega
  | 3 => rw [h 0 (by decide), h 1 (by decide), h 2 (by decide)]; omega

/-- The number of entries of a list with a property is a sum over the list. -/
theorem length_filter_eq_sum {α : Type} (p : α → Bool) (l : List α) :
    (l.filter p).length = (l.map fun a => (p a).toNat).sum := by
  induction l with
  | nil => rfl
  | cons a l ih => cases h : p a <;> simp [h, ih, Nat.add_comm]

/-- The number of lanes with a property, when it changes at one lane alone. -/
theorem four_count_update {p q : Fin 4 → Bool} (n : Fin 4) (h : ∀ m, m ≠ n → q m = p m) :
    (four.filter q).length + (p n).toNat = (four.filter p).length + (q n).toNat := by
  rw [length_filter_eq_sum, length_filter_eq_sum]
  exact four_sum_update (f := fun m => (p m).toNat) (g := fun m => (q m).toNat) n fun m hm => by rw [h m hm]

/-- A lane with a property is counted. -/
theorem four_count_pos {p : Fin 4 → Bool} {n : Fin 4} (h : p n = true) : 1 ≤ (four.filter p).length :=
  List.length_pos_of_mem (List.mem_filter.mpr ⟨by fin_cases n <;> simp [four], h⟩)

/-! ## The lanes -/

theorem State.laneIsMain_eq (s : State) (n : Fin 4) :
    s.laneIsMain n = ((s.lanes.get n).binding.map Binding.role == some .main) := by
  unfold State.laneIsMain
  cases (s.lanes.get n).binding <;> simp

theorem Lane.held_eq (l : Lane) : l.held = (l.binding.map Binding.slots).getD 0 := by
  unfold Lane.held
  cases l.binding <;> rfl

theorem LaneSafe.congr {s t : State} (h : t.lanes = s.lanes) (hs : LaneSafe s) : LaneSafe t := by
  unfold LaneSafe State.laneIsMain
  rw [h]
  exact hs

/-- Lanes that keep their bindings and fit are safe as before. -/
theorem LaneSafe.of_bindings {s t : State} (hb : ∀ n, (t.lanes.get n).binding = (s.lanes.get n).binding)
    (hf : ∀ n, (t.lanes.get n).fits) (h : LaneSafe s) : LaneSafe t := by
  obtain ⟨-, hsum, hmain⟩ := h
  refine ⟨hf, ?_, ?_⟩
  · simpa only [Lane.held_eq, hb] using hsum
  · have : t.laneIsMain = s.laneIsMain := funext fun n => by rw [State.laneIsMain_eq, State.laneIsMain_eq, hb]
    rwa [this]

/-- The value of one lane after another is set. -/
theorem Four.get_set {α : Type} (f : Four α) (i j : Fin 4) (a : α) : (f.set i a).get j = if j = i then a else f.get j := by
  split
  · subst_vars
    simp
  · exact Four.get_set_other f i j a ‹_›

/-- A lane just bound fits (R18). -/
theorem Lane.fresh_fits {b : Binding} (hbase : b.base % 128 = 0) (hlow : 16 ≤ b.slots) (hhigh : b.slots ≤ 1024)
    (hin : b.base + b.slots * 128 ≤ Config.storeSize) : (Lane.fresh b).fits :=
  ⟨by simp [Lane.fresh, Lane.unbound], by simp [Lane.fresh, Lane.unbound], by simp [Lane.fresh, Lane.unbound],
    by simp [Lane.fresh], hbase, hlow, hhigh, hin⟩

theorem Lane.unbound_fits : Lane.unbound.fits :=
  ⟨by simp [Lane.unbound], by simp [Lane.unbound], by simp [Lane.unbound], rfl⟩

/-- The entries left free are 2,048 less those that the lanes hold (R20). -/
theorem State.freeEntries_eq (s : State) : s.freeEntries = 2048 - (four.map fun n => (s.lanes.get n).held).sum := rfl

theorem State.bindLane_laneSafe {s : State} {n : Fin 4} {b : Binding} (hfit : (Lane.fresh b).fits) (hlow : 16 ≤ b.slots)
    (hc : s.bindCheck n b = none) (h : LaneSafe s) : LaneSafe (s.bindLane n b) := by
  obtain ⟨hfits, hsum, hmain⟩ := h
  obtain ⟨hfree, -, hrole, hentries⟩ := State.bindCheck_none hc
  have hget : ∀ m, (s.bindLane n b).lanes.get m = if m = n then Lane.fresh b else s.lanes.get m := by
    simp [State.bindLane_lanes, Four.get_set]
  refine ⟨fun m => ?_, ?_, ?_⟩
  · rw [hget]
    split
    · exact hfit
    · exact hfits m
  · have hupd := four_sum_update (f := fun m => (s.lanes.get m).held) (g := fun m => ((s.bindLane n b).lanes.get m).held) n
      fun m hm => by simp [hget, hm]
    have hnew : ((s.bindLane n b).lanes.get n).held = b.slots := by simp [hget, Lane.held, Lane.fresh]
    rw [State.freeEntries_eq] at hentries
    omega
  · have hupd := four_count_update (p := s.laneIsMain) (q := (s.bindLane n b).laneIsMain) n
      fun m hm => by simp [State.laneIsMain_eq, hget, hm]
    have hnew : (s.bindLane n b).laneIsMain n = (b.role == .main) := by simp [State.laneIsMain_eq, hget, Lane.fresh]
    rw [hnew] at hupd
    cases hr : b.role with
    | main =>
      have hnone : (four.filter s.laneIsMain).length = 0 := by
        simpa [State.mainTaken] using hrole hr
      simp only [hr] at hupd
      have : (Role.main == Role.main).toNat = 1 := rfl
      omega
    | mosaic =>
      simp only [hr] at hupd
      have : (Role.mosaic == Role.main).toNat = 0 := rfl
      omega

theorem State.unbindLane_laneSafe {s : State} (n : Fin 4) (b : Binding) (h : LaneSafe s) : LaneSafe (s.unbindLane n b) := by
  obtain ⟨hfits, hsum, hmain⟩ := h
  have hget : ∀ m, (s.unbindLane n b).lanes.get m = if m = n then Lane.unbound else s.lanes.get m := by
    simp [State.unbindLane_lanes, Four.get_set]
  refine ⟨fun m => ?_, ?_, ?_⟩
  · rw [hget]
    split
    · exact Lane.unbound_fits
    · exact hfits m
  · have hupd := four_sum_update (f := fun m => (s.lanes.get m).held) (g := fun m => ((s.unbindLane n b).lanes.get m).held) n
      fun m hm => by simp [hget, hm]
    have hnew : ((s.unbindLane n b).lanes.get n).held = 0 := by simp [hget, Lane.held, Lane.unbound]
    omega
  · have hupd := four_count_update (p := s.laneIsMain) (q := (s.unbindLane n b).laneIsMain) n
      fun m hm => by simp [State.laneIsMain_eq, hget, hm]
    have hnew : (s.unbindLane n b).laneIsMain n = false := by simp [State.laneIsMain_eq, hget, Lane.unbound]
    rw [hnew] at hupd
    simp only [Bool.toNat_false] at hupd
    omega

theorem LaneMove.keeps_lanes {s t : State} (h : LaneMove s t) (hs : LaneSafe s) : LaneSafe t := by
  cases h with
  | update n l hb hf =>
    refine hs.of_bindings (fun m => ?_) (fun m => ?_)
    · rw [State.setLane_lanes, Four.get_set]
      split
      · subst_vars
        exact hb
      · rfl
    · rw [State.setLane_lanes, Four.get_set]
      split
      · exact hf (hs.1 n)
      · exact hs.1 m
  | bind n b hbase hlow hhigh hin hc => exact State.bindLane_laneSafe (Lane.fresh_fits hbase hlow hhigh hin) hlow hc hs
  | unbind n b => exact State.unbindLane_laneSafe n b hs
  | region base slots => exact hs.congr (s.runLogRegion_lanes base slots).1

theorem laneSafe_keptByStep : KeptByStep LaneSafe := by
  refine keptByStep_of_lanes (fun hl _ => .congr hl) LaneMove.keeps_lanes (fun {s t} h _ => ?_)
  have hb : ∀ n, t.lanes.get n = Lane.unbound := by simp [h.lanes]
  have hm : t.laneIsMain = fun _ => false := funext fun n => by simp [State.laneIsMain, hb, Lane.unbound]
  exact ⟨fun n => hb n ▸ Lane.unbound_fits, by simp [hb, Lane.held, Lane.unbound], by simp [hm]⟩

end Sys2Proof.Machine
end

section
namespace Sys2Proof.Machine

/-! ## The service slots -/

/-- How many lanes are bound to a service, of the services of the four lanes. -/
def boundTo (services : Fin 4 → Option Byte) (v : Byte) : Nat := (four.filter fun n => services n == some v).length

/-- The service slots fit the services of the lanes (R47): SlotSafe, on what it rests on. -/
structure SlotsFit (keys : Fin 4 → Option (Byte × Nat)) (services : Fin 4 → Option Byte) : Prop where
  apart : ∀ i j v q r, keys i = some (v, q) → keys j = some (v, r) → i = j
  counted : ∀ i v r, keys i = some (v, r) → r = boundTo services v ∧ 1 ≤ r
  served : ∀ n v, services n = some v → ∃ i r, keys i = some (v, r)

/-- The slot of a service, if one in use holds it. -/
theorem State.slotIndex_some {s : State} {v : Byte} {i : Fin 4} (h : s.slotIndex v = some i) :
    ∃ r, s.slotKeys i = some (v, r) := by
  have hp := List.find?_some h
  split at hp
  · rename_i w hw
    obtain rfl : w.service = v := by simpa using hp
    exact ⟨w.refs, by simp [State.slotKeys, hw, ServiceSlot.key]⟩
  · contradiction

/-- No slot in use holds a service that has no slot. -/
theorem State.slotIndex_none {s : State} {v : Byte} (h : s.slotIndex v = none) (i : Fin 4) (r : Nat) :
    s.slotKeys i ≠ some (v, r) := by
  intro hk
  obtain ⟨w, hw, hkey⟩ := Option.map_eq_some_iff.mp hk
  have hi : i ∈ four := by fin_cases i <;> simp [four]
  have := List.find?_eq_none.mp h i hi
  simp only [hw] at this
  exact this (by simpa [ServiceSlot.key] using congrArg Prod.fst hkey)

theorem slotSafe_iff (s : State) : SlotSafe s ↔ SlotsFit s.slotKeys s.laneService := by
  have hkey : ∀ i v r, s.slotKeys i = some (v, r) ↔ ∃ w, s.slots.get i = some w ∧ w.service = v ∧ w.refs = r := by
    simp [State.slotKeys, ServiceSlot.key]
  constructor
  · rintro ⟨hapart, hcounted, hserved⟩
    refine ⟨fun i j v q r hi hj => ?_, fun i v r hi => ?_, fun n v hn => ?_⟩
    · obtain ⟨w, hw, hv, -⟩ := (hkey i v q).mp hi
      obtain ⟨x, hx, hv', -⟩ := (hkey j v r).mp hj
      exact hapart i j w x hw hx (hv.trans hv'.symm)
    · obtain ⟨w, hw, rfl, rfl⟩ := (hkey i v r).mp hi
      exact hcounted i w hw
    · obtain ⟨b, hb, rfl⟩ := Option.map_eq_some_iff.mp hn
      obtain ⟨i, hi⟩ := Option.isSome_iff_exists.mp (hserved n b hb)
      exact ⟨i, State.slotIndex_some hi⟩
  · rintro ⟨hapart, hcounted, hserved⟩
    refine ⟨fun i j v w hv hw hs => ?_, fun i v hv => ?_, fun n b hb => ?_⟩
    · exact hapart i j v.service v.refs w.refs ((hkey _ _ _).mpr ⟨v, hv, rfl, rfl⟩) ((hkey _ _ _).mpr ⟨w, hw, hs.symm, rfl⟩)
    · exact hcounted i v.service v.refs ((hkey _ _ _).mpr ⟨v, hv, rfl, rfl⟩)
    · obtain ⟨i, r, hi⟩ := hserved n b.service (by simp [State.laneService, hb])
      by_contra hnone
      exact State.slotIndex_none (by simpa using hnone) i r hi

/-- How the count of a service's lanes changes when one lane's service does. -/
theorem boundTo_update {sv sv' : Fin 4 → Option Byte} (n : Fin 4) (h : ∀ m, m ≠ n → sv' m = sv m) (v : Byte) :
    boundTo sv' v + (sv n == some v).toNat = boundTo sv v + (sv' n == some v).toNat :=
  four_count_update (p := fun m => sv m == some v) (q := fun m => sv' m == some v) n fun m hm => by rw [h m hm]

theorem boundTo_pos {sv : Fin 4 → Option Byte} {n : Fin 4} {v : Byte} (h : sv n = some v) : 1 ≤ boundTo sv v :=
  four_count_pos (n := n) (by simp [h])

/-- A lane that was bound to nothing joins the slot of its service: the slot in use counts it, or a free one takes the service
(R47). -/
theorem SlotsFit.join {k k' : Fin 4 → Option (Byte × Nat)} {sv sv' : Fin 4 → Option Byte} (h : SlotsFit k sv) {n i : Fin 4}
    {v : Byte} (hn : sv n = none) (hn' : sv' n = some v) (hlanes : ∀ m, m ≠ n → sv' m = sv m)
    (hslots : ∀ j, j ≠ i → k' j = k j)
    (hi : (∃ r, k i = some (v, r) ∧ k' i = some (v, r + 1)) ∨ (k i = none ∧ (∀ j r, k j ≠ some (v, r)) ∧ k' i = some (v, 1))) :
    SlotsFit k' sv' := by
  have hcount : ∀ w, boundTo sv' w = boundTo sv w + if w = v then 1 else 0 := by
    intro w
    have := boundTo_update n hlanes w
    rw [hn, hn'] at this
    by_cases hw : w = v
    · subst hw
      simpa using this
    · have hwv : (v == w) = false := by simpa using fun e => hw e.symm
      simpa [hw, hwv] using this
  have hother : ∀ j r, k' j = some (v, r) → j = i := by
    intro j r hj
    by_contra hne
    rw [hslots j hne] at hj
    rcases hi with ⟨q, hq, -⟩ | ⟨-, hno, -⟩
    · exact hne (h.apart j i v r q hj hq)
    · exact hno j r hj
  have hown : ∀ w r, k' i = some (w, r) → w = v := by
    intro w r hw
    rcases hi with ⟨q, -, hq⟩ | ⟨-, -, hq⟩ <;> rw [hq] at hw <;> exact (congrArg Prod.fst (Option.some.inj hw)).symm
  refine ⟨fun a b w q r ha hb => ?_, fun a w r ha => ?_, fun m w hm => ?_⟩
  · by_cases hwv : w = v
    · subst hwv
      exact (hother a q ha).trans (hother b r hb).symm
    · have hne : ∀ c x, k' c = some (w, x) → c ≠ i := fun c x hc hci => hwv (hown w x (hci ▸ hc))
      rw [hslots a (hne a q ha)] at ha
      rw [hslots b (hne b r hb)] at hb
      exact h.apart a b w q r ha hb
  · rw [hcount]
    by_cases hai : a = i
    · subst hai
      obtain rfl := hown w r ha
      rcases hi with ⟨q, hq, hq'⟩ | ⟨-, hno, hq'⟩ <;> rw [hq'] at ha <;> obtain rfl := congrArg Prod.snd (Option.some.inj ha)
      · have := (h.counted a w q hq).1
        simp [this]
      · have hzero : boundTo sv w = 0 := by
          by_contra hpos
          obtain ⟨m, hm⟩ := List.exists_mem_of_length_pos (Nat.pos_of_ne_zero hpos)
          obtain ⟨j, r, hj⟩ := h.served m w (by simpa using (List.mem_filter.mp hm).2)
          exact hno j r hj
        simp [hzero]
    · have hwv : ¬ w = v := fun e => hai (hother a r (e ▸ ha))
      rw [hslots a hai] at ha
      simpa [hwv] using h.counted a w r ha
  · by_cases hwv : w = v
    · subst hwv
      rcases hi with ⟨q, -, hq⟩ | ⟨-, -, hq⟩ <;> exact ⟨i, _, hq⟩
    · have hmn : m ≠ n := fun e => hwv (by rw [e, hn'] at hm; exact (Option.some.inj hm).symm)
      rw [hlanes m hmn] at hm
      obtain ⟨j, r, hj⟩ := h.served m w hm
      have hji : j ≠ i := by
        rintro rfl
        rcases hi with ⟨q, hq, -⟩ | ⟨hq, -⟩
        · exact hwv (by rw [hq] at hj; exact (congrArg Prod.fst (Option.some.inj hj)).symm)
        · simp [hq] at hj
      exact ⟨j, r, (hslots j hji).trans hj⟩

/-- A bound lane leaves the slot of its service: the slot counts one lane less, or, with none left, is cleared (R48). -/
theorem SlotsFit.leave {k k' : Fin 4 → Option (Byte × Nat)} {sv sv' : Fin 4 → Option Byte} (h : SlotsFit k sv) {n i : Fin 4}
    {v : Byte} {q : Nat} (hn : sv n = some v) (hn' : sv' n = none) (hlanes : ∀ m, m ≠ n → sv' m = sv m)
    (hslots : ∀ j, j ≠ i → k' j = k j) (hi : k i = some (v, q)) (hi' : k' i = if q ≤ 1 then none else some (v, q - 1)) :
    SlotsFit k' sv' := by
  have hcount : ∀ w, boundTo sv' w + (if w = v then 1 else 0) = boundTo sv w := by
    intro w
    have := boundTo_update n hlanes w
    rw [hn, hn'] at this
    by_cases hw : w = v
    · subst hw
      simpa using this
    · have hwv : (v == w) = false := by simpa using fun e => hw e.symm
      simpa [hw, hwv] using this
  have hq : q = boundTo sv v := (h.counted i v q hi).1
  have hkeep : ∀ j w r, k' j = some (w, r) → ∃ x, k j = some (w, x) := by
    intro j w r hj
    by_cases hji : j = i
    · subst hji
      rw [hi'] at hj
      split at hj
      · contradiction
      · obtain rfl := congrArg Prod.fst (Option.some.inj hj)
        exact ⟨q, hi⟩
    · exact ⟨r, (hslots j hji).symm.trans hj⟩
  refine ⟨fun a b w x r ha hb => ?_, fun a w r ha => ?_, fun m w hm => ?_⟩
  · obtain ⟨x', hx'⟩ := hkeep a w x ha
    obtain ⟨r', hr'⟩ := hkeep b w r hb
    exact h.apart a b w x' r' hx' hr'
  · have hw := hcount w
    by_cases hai : a = i
    · subst hai
      rw [hi'] at ha
      split at ha
      · contradiction
      · obtain ⟨rfl, rfl⟩ := Prod.mk.injEq .. ▸ Option.some.inj ha
        simp only [if_true] at hw
        omega
    · rw [hslots a hai] at ha
      have hwv : ¬ w = v := fun e => hai (h.apart a i v r q (e ▸ ha) hi)
      simp only [hwv, if_false, Nat.add_zero] at hw
      rw [hw]
      exact h.counted a w r ha
  · have hmn : m ≠ n := by
      rintro rfl
      simp [hn'] at hm
    obtain ⟨j, r, hj⟩ := h.served m w ((hlanes m hmn).symm.trans hm)
    by_cases hji : j = i
    · subst hji
      obtain ⟨rfl, rfl⟩ := Prod.mk.injEq .. ▸ Option.some.inj (hj.symm.trans hi)
      have hpos : 1 ≤ boundTo sv' w := boundTo_pos hm
      have hw := hcount w
      simp only [if_true] at hw
      exact ⟨j, r - 1, by rw [hi', if_neg (by omega)]⟩
    · exact ⟨j, r, (hslots j hji).trans hj⟩

/-- While some lane is bound to nothing, some slot is free: each slot in use serves a lane of its own. -/
theorem SlotsFit.exists_free {k : Fin 4 → Option (Byte × Nat)} {sv : Fin 4 → Option Byte} (h : SlotsFit k sv) {n : Fin 4}
    (hn : sv n = none) : ∃ i, k i = none := by
  by_contra hall
  have hlane : ∀ i, ∃ m v r, k i = some (v, r) ∧ sv m = some v := by
    intro i
    obtain ⟨⟨v, r⟩, hk⟩ := Option.ne_none_iff_exists'.mp (not_exists.mp hall i)
    obtain ⟨hr, hpos⟩ := h.counted i v r hk
    obtain ⟨m, hm⟩ := List.exists_mem_of_length_pos (hr ▸ hpos : 0 < boundTo sv v)
    exact ⟨m, v, r, hk, by simpa using (List.mem_filter.mp hm).2⟩
  choose m v r hk hm using hlane
  have hinj : Function.Injective m := by
    intro i j hij
    have hv : v i = v j := Option.some.inj ((hm i).symm.trans (hij ▸ hm j))
    exact h.apart i j (v i) (r i) (r j) (hk i) (hv ▸ hk j)
  obtain ⟨i, rfl⟩ := (Finite.injective_iff_surjective.mp hinj) n
  simp [hm i] at hn

theorem State.laneService_set (s : State) {t : State} {n : Fin 4} {l : Lane} (h : t.lanes = s.lanes.set n l) (m : Fin 4) :
    t.laneService m = if m = n then l.binding.map Binding.service else s.laneService m := by
  unfold State.laneService
  rw [h, Four.get_set]
  split <;> rfl

/-- The keys after a slot is set. -/
theorem State.setSlot_slotKeys (s : State) (i : Fin 4) (o : Option ServiceSlot) (j : Fin 4) :
    (s.setSlot i o).slotKeys j = if j = i then o.map ServiceSlot.key else s.slotKeys j := by
  unfold State.slotKeys
  rw [State.setSlot_slots, Four.get_set]
  split <;> rfl

/-- A slot not in use is found, if there is one (R46). -/
theorem State.freeSlot_of_key {s : State} {i : Fin 4} (h : s.slotKeys i = none) :
    ∃ j, s.freeSlot = some j ∧ s.slotKeys j = none := by
  have hi : i ∈ four := by fin_cases i <;> simp [four]
  have hnone : (s.slots.get i).isNone = true := by simpa [State.slotKeys] using h
  obtain ⟨j, hj⟩ := Option.isSome_iff_exists.mp (List.find?_isSome.mpr ⟨i, hi, hnone⟩ : s.freeSlot.isSome = true)
  exact ⟨j, hj, by simpa [State.slotKeys] using List.find?_some hj⟩

/-- What joining a slot does to the keys, when some slot is free (R47). -/
theorem State.joinSlot_keys {s : State} {v : Byte} (hfree : ∃ i, s.slotKeys i = none) :
    ∃ i, (∀ j, j ≠ i → (s.joinSlot v).slotKeys j = s.slotKeys j) ∧
      ((∃ r, s.slotKeys i = some (v, r) ∧ (s.joinSlot v).slotKeys i = some (v, r + 1)) ∨
        (s.slotKeys i = none ∧ (∀ j r, s.slotKeys j ≠ some (v, r)) ∧ (s.joinSlot v).slotKeys i = some (v, 1))) := by
  unfold State.joinSlot
  split
  · rename_i i hi
    obtain ⟨r, hr⟩ := State.slotIndex_some hi
    obtain ⟨w, hw, hkey⟩ := Option.map_eq_some_iff.mp hr
    obtain ⟨rfl, rfl⟩ := Prod.mk.injEq .. ▸ hkey
    exact ⟨i, fun j hj => by simp [State.setSlot_slotKeys, hj],
      .inl ⟨_, hr, by simp [State.setSlot_slotKeys, hw, ServiceSlot.key]⟩⟩
  · rename_i hnone
    obtain ⟨i, hi⟩ := hfree
    obtain ⟨j, hj, hjk⟩ := State.freeSlot_of_key hi
    rw [hj]
    exact ⟨j, fun m hm => by simp [State.setSlot_slotKeys, hm],
      .inr ⟨hjk, State.slotIndex_none hnone, by simp [State.setSlot_slotKeys, ServiceSlot.key, ServiceSlot.fresh]⟩⟩

/-- What leaving a slot in use does to the keys (R48). -/
theorem State.leaveSlot_keys {s : State} {v : Byte} {i : Fin 4} (hi : s.slotIndex v = some i) :
    ∃ r, s.slotKeys i = some (v, r) ∧ (∀ j, j ≠ i → (s.leaveSlot v).slotKeys j = s.slotKeys j) ∧
      (s.leaveSlot v).slotKeys i = if r ≤ 1 then none else some (v, r - 1) := by
  obtain ⟨r, hr⟩ := State.slotIndex_some hi
  obtain ⟨w, hw, hkey⟩ := Option.map_eq_some_iff.mp hr
  obtain ⟨rfl, rfl⟩ := Prod.mk.injEq .. ▸ hkey
  unfold State.leaveSlot
  simp only [hi]
  refine ⟨_, hr, fun j hj => by simp [State.setSlot_slotKeys, hj], ?_⟩
  simp only [State.setSlot_slotKeys, if_true, hw, Option.bind_some]
  split <;> rfl

theorem State.bindLane_slotSafe {s : State} {n : Fin 4} {b : Binding} (hn : (s.lanes.get n).binding = none)
    (h : SlotSafe s) : SlotSafe (s.bindLane n b) := by
  have hfit := (slotSafe_iff s).mp h
  have hnone : s.laneService n = none := by simp [State.laneService, hn]
  have hservice := s.laneService_set (s.bindLane_lanes n b)
  obtain ⟨i, hother, hi⟩ := State.joinSlot_keys (s := s.setLane n (Lane.fresh b)) (v := b.service) (hfit.exists_free hnone)
  exact (slotSafe_iff _).mpr (hfit.join hnone (by simp [hservice, Lane.fresh]) (fun m hm => by simp [hservice, hm]) hother hi)

theorem State.unbindLane_slotSafe {s : State} {n : Fin 4} {b : Binding} (hn : (s.lanes.get n).binding = some b)
    (h : SlotSafe s) : SlotSafe (s.unbindLane n b) := by
  have hfit := (slotSafe_iff s).mp h
  have hsome : s.laneService n = some b.service := by simp [State.laneService, hn]
  have hservice := s.laneService_set (s.unbindLane_lanes n b)
  obtain ⟨i, hi⟩ := Option.isSome_iff_exists.mp (h.2.2 n b hn)
  obtain ⟨r, hr, hother, hown⟩ := State.leaveSlot_keys (s := s.setLane n Lane.unbound) hi
  exact (slotSafe_iff _).mpr
    (hfit.leave hsome (by simp [hservice, Lane.unbound]) (fun m hm => by simp [hservice, hm]) hother hr hown)

theorem SlotSafe.of_fields {s t : State} (h : SlotSafe s) (hs : t.laneService = s.laneService)
    (hk : t.slotKeys = s.slotKeys) : SlotSafe t := by
  rw [slotSafe_iff, hs, hk]
  exact (slotSafe_iff s).mp h

theorem LaneMove.keeps_slots {s t : State} (h : LaneMove s t) (hs : SlotSafe s) : SlotSafe t := by
  cases h with
  | update n l hb hf =>
    refine hs.of_fields (funext fun m => ?_) rfl
    rw [s.laneService_set (s.setLane_lanes n l)]
    split
    · subst_vars
      rw [hb]
      rfl
    · rfl
  | bind n b hbase hlow hhigh hin hc => exact State.bindLane_slotSafe (State.bindCheck_none hc).1 hs
  | unbind n b hb => exact State.unbindLane_slotSafe hb hs
  | region base slots =>
    obtain ⟨hl, hv⟩ := s.runLogRegion_lanes base slots
    exact hs.of_fields (by unfold State.laneService; rw [hl]) (by unfold State.slotKeys; rw [hv])

theorem slotSafe_keptByStep : KeptByStep SlotSafe := by
  refine keptByStep_of_lanes (fun hl hk h => h.of_fields (by unfold State.laneService; rw [hl]) hk) LaneMove.keeps_slots
    (fun {s t} h _ => (slotSafe_iff t).mpr ?_)
  have hk : ∀ i, t.slotKeys i = none := by simp [State.slotKeys, h.slots]
  have hv : ∀ n, t.laneService n = none := by simp [State.laneService, h.lanes, Lane.unbound]
  exact ⟨by simp [hk], by simp [hk], by simp [hv]⟩

/-! ## The ranges of the store -/

theorem overlaps_comm (a b : Extent) : overlaps a b = overlaps b a := Bool.and_comm _ _

/-- Ranges fewer than those of a safe part are safe. -/
theorem GeometrySafe.sublist {s t : State} (h : t.extents.Sublist s.extents) (hs : GeometrySafe s) : GeometrySafe t :=
  ⟨hs.1.sublist h, fun e he => hs.2 e (h.subset he)⟩

/-- One new range that is in the store and apart from those that stay. -/
theorem GeometrySafe.insert {s t : State} {e : Extent} {rest : List Extent} (hp : t.extents.Perm (e :: rest))
    (hr : rest.Sublist s.extents) (hapart : ∀ x ∈ rest, overlaps e x = false) (hin : e.1 + e.2 ≤ Config.storeSize)
    (hs : GeometrySafe s) : GeometrySafe t := by
  have hsymm : ∀ {x y : Extent}, overlaps x y = false → overlaps y x = false := fun h => (overlaps_comm _ _).trans h
  refine ⟨(hp.pairwise_iff hsymm).mpr (List.pairwise_cons.mpr ⟨hapart, hs.1.sublist hr⟩), fun x hx => ?_⟩
  rcases List.mem_cons.mp (hp.subset hx) with rfl | hx
  · exact hin
  · exact hs.2 x (hr.subset hx)

theorem RangesKept.extents {s t : State} (h : RangesKept s t) : t.extents.Sublist s.extents := by
  unfold State.extents
  rw [h.lanes]
  exact (((List.Sublist.refl (anchorExtent :: laneExtents s.lanes)).append h.command).append h.report).append h.logs

theorem overlapsAny_false {e : Extent} {l : List Extent} : overlapsAny e l = false ↔ ∀ x ∈ l, overlaps e x = false := by
  simp [overlapsAny]

/-- The rings of the bound lanes, lane by lane. -/
theorem laneExtents_eq (lanes : Four Lane) :
    laneExtents lanes = four.filterMap fun n => (lanes.get n).binding.map Binding.extent := rfl

/-- A list's values, when one that was absent is there and the others stay. -/
theorem filterMap_insert {α β : Type} {f g : α → Option β} {n : α} {e : β} (hn : f n = none) (hg : g n = some e)
    (h : ∀ m, m ≠ n → g m = f m) : ∀ l : List α, l.Nodup → n ∈ l → (l.filterMap g).Perm (e :: l.filterMap f)
  | [], _, hm => by simp at hm
  | a :: l, hd, hm => by
    obtain ⟨hal, hl⟩ := List.nodup_cons.mp hd
    by_cases ha : a = n
    · subst ha
      have hrest : l.filterMap g = l.filterMap f := List.filterMap_congr fun m hm => h m (ne_of_mem_of_not_mem hm hal)
      simp [hn, hg, hrest]
    · have ih := filterMap_insert hn hg h l hl (List.mem_of_ne_of_mem (Ne.symm ha) hm)
      cases hf : f a with
      | none => simpa [h a ha, hf] using ih
      | some y => simpa [h a ha, hf] using (ih.cons y).trans (.swap e y _)

/-- A list's values, when some are absent. -/
theorem filterMap_sublist {α β : Type} {f g : α → Option β} (h : ∀ m, g m = none ∨ g m = f m) :
    ∀ l : List α, (l.filterMap g).Sublist (l.filterMap f)
  | [] => .slnil
  | a :: l => by
    have ih := filterMap_sublist h l
    rcases h a with ha | ha <;> cases hf : f a <;> simp [ha, hf, ih, List.Sublist.cons]

/-- A lane that was bound to nothing brings one range when bound. -/
theorem laneExtents_bind {lanes : Four Lane} {n : Fin 4} {b : Binding} (hn : (lanes.get n).binding = none) :
    (laneExtents (lanes.set n (Lane.fresh b))).Perm (b.extent :: laneExtents lanes) := by
  rw [laneExtents_eq, laneExtents_eq]
  refine filterMap_insert (n := n) (by simp [hn]) (by simp [Lane.fresh]) (fun m hm => ?_) four (by decide) ?_
  · rw [Four.get_set_other _ _ _ _ hm]
  · fin_cases n <;> simp [four]

/-- A lane unbound takes no range away but its own. -/
theorem laneExtents_unbind (lanes : Four Lane) (n : Fin 4) :
    (laneExtents (lanes.set n Lane.unbound)).Sublist (laneExtents lanes) := by
  rw [laneExtents_eq, laneExtents_eq]
  refine filterMap_sublist (fun m => ?_) four
  rw [Four.get_set]
  split
  · exact .inl rfl
  · exact .inr rfl

/-- What the lanes' moves leave of the rings and the log regions. -/
theorem State.joinSlot_keeps (s : State) (v : Byte) : (s.joinSlot v).commandRing = s.commandRing ∧
    (s.joinSlot v).reportRing = s.reportRing ∧ (s.joinSlot v).charges = s.charges := by
  unfold State.joinSlot
  split
  · exact ⟨rfl, rfl, rfl⟩
  · split <;> exact ⟨rfl, rfl, rfl⟩

theorem State.leaveSlot_keeps (s : State) (v : Byte) : (s.leaveSlot v).commandRing = s.commandRing ∧
    (s.leaveSlot v).reportRing = s.reportRing ∧ (s.leaveSlot v).charges = s.charges := by
  unfold State.leaveSlot
  split <;> exact ⟨rfl, rfl, rfl⟩

/-- A range whose place among the ranges is behind others comes first up to order. -/
theorem cons_append_perm {α : Type} {a : α} {x l l' : List α} {e : α} (h : l'.Perm (e :: l)) :
    (a :: l' ++ x).Perm (e :: (a :: l ++ x)) :=
  ((h.append_right x).cons a).trans (.swap e a _)

theorem State.bindLane_geometrySafe {s : State} {n : Fin 4} {b : Binding} (hin : b.base + b.slots * 128 ≤ Config.storeSize)
    (hc : s.bindCheck n b = none) (h : GeometrySafe s) : GeometrySafe (s.bindLane n b) := by
  obtain ⟨hn, hapart, -, -⟩ := State.bindCheck_none hc
  obtain ⟨hcmd, hrep, hchg⟩ := State.joinSlot_keeps (s.setLane n (Lane.fresh b)) b.service
  refine h.insert (e := b.extent) (rest := s.extents) ?_ (.refl _) (overlapsAny_false.mp hapart) hin
  have hext : (s.bindLane n b).extents =
      anchorExtent :: laneExtents (s.lanes.set n (Lane.fresh b)) ++ s.commandRing.extents ++ s.reportRing.extents ++
        logExtents s.charges := by
    unfold State.extents
    rw [State.bindLane_lanes]
    unfold State.bindLane
    rw [hcmd, hrep, hchg]
    rfl
  rw [hext]
  simp only [State.extents, List.append_assoc]
  exact cons_append_perm (laneExtents_bind hn)

theorem State.unbindLane_geometrySafe {s : State} (n : Fin 4) (b : Binding) (h : GeometrySafe s) :
    GeometrySafe (s.unbindLane n b) := by
  obtain ⟨hcmd, hrep, hchg⟩ := State.leaveSlot_keeps (s.setLane n Lane.unbound) b.service
  refine h.sublist ?_
  have hext : (s.unbindLane n b).extents =
      anchorExtent :: laneExtents (s.lanes.set n Lane.unbound) ++ s.commandRing.extents ++ s.reportRing.extents ++
        logExtents s.charges := by
    unfold State.extents
    rw [State.unbindLane_lanes]
    unfold State.unbindLane
    dsimp only
    rw [hcmd, hrep, hchg]
    rfl
  rw [hext]
  exact ((((laneExtents_unbind s.lanes n).cons_cons anchorExtent).append (.refl _)).append (.refl _)).append (.refl _)

/-- The tests of LOG_REGION that a region passed (R122). -/
theorem State.regionCheck_none {s : State} {base slots : Nat} (h : s.regionCheck base slots = none) :
    base + slots * 32 ≤ Config.storeSize ∧ overlapsAny (ringExtent base slots 32) s.extents = false ∧
      ¬ (s.charges.current.isSome = true ∧ s.charges.staged.isSome = true) := by
  unfold State.regionCheck at h
  split at h
  · contradiction
  · rename_i hformat
    split at h
    · contradiction
    · rename_i hapart
      split at h
      · contradiction
      · rename_i hstaged
        obtain ⟨-, -, -, hin⟩ := not_not.mp hformat
        exact ⟨hin, (Bool.not_eq_true _).mp hapart, hstaged⟩

theorem State.runLogRegion_geometrySafe {s : State} (base slots : Nat) (h : GeometrySafe s) :
    GeometrySafe (s.runLogRegion base slots).1 := by
  have insert : ∀ c : ChargeUnit, s.regionCheck base slots = none →
      (logExtents c).Perm (ringExtent base slots 32 :: logExtents s.charges) → GeometrySafe { s with charges := c } := by
    intro c hcheck hc
    obtain ⟨hin, hapart, -⟩ := State.regionCheck_none hcheck
    refine h.insert (e := ringExtent base slots 32) (rest := s.extents) ?_ (.refl _) (overlapsAny_false.mp hapart) hin
    exact (hc.append_left _).trans List.perm_middle
  rcases s.runLogRegion_cases base slots with ⟨r, -, e⟩ | ⟨hc, hcur, e⟩ | ⟨r, hc, hcur, e⟩ <;> rw [e]
  · exact h
  · exact insert _ hc (by simp [logExtents, hcur])
  · obtain ⟨-, -, hstaged⟩ := State.regionCheck_none hc
    have hst : s.charges.staged = none := by simpa [hcur] using hstaged
    exact insert _ hc (by simpa [logExtents, hcur, hst] using List.Perm.swap _ _ [])

/-- The conditions that a ring in force passed (R10). -/
theorem State.geometryValid_iff (s : State) (base slots : Word) (other : Ring) :
    s.geometryValid base slots other = true ↔
      base.toNat % 32 = 0 ∧ 4 ≤ slots.toNat ∧ slots.toNat ≤ 256 ∧ base.toNat + slots.toNat * 32 ≤ Config.storeSize ∧
        64 ≤ base.toNat ∧ ∀ x ∈ laneExtents s.lanes ++ logExtents s.charges ++ other.extents,
          overlaps (ringExtent base.toNat slots.toNat 32) x = false := by
  simp only [State.geometryValid, Bool.and_eq_true, decide_eq_true_eq, Bool.not_eq_true', overlapsAny_false,
    List.forall_mem_append, and_assoc]

/-- The range of a ring just opened, if any, is in the store and apart from the anchor block, the lanes, the regions and the other
ring (R10). -/
theorem State.openedRing_extents (s : State) (base slots : Word) (other : Ring) :
    (s.openedRing base slots other).extents = [] ∨
      ∃ e, (s.openedRing base slots other).extents = [e] ∧ e.1 + e.2 ≤ Config.storeSize ∧ overlaps e anchorExtent = false ∧
        ∀ x ∈ laneExtents s.lanes ++ logExtents s.charges ++ other.extents, overlaps e x = false := by
  unfold State.openedRing
  split
  · rename_i hv
    obtain ⟨-, -, -, hin, hlow, hapart⟩ := (s.geometryValid_iff base slots other).mp hv
    refine .inr ⟨_, rfl, hin, ?_, hapart⟩
    have : ¬ base.toNat < 64 := by omega
    simp [overlaps, anchorExtent, ringExtent, this]
  · exact .inl rfl

theorem State.openCommandRing_geometrySafe {s : State} (h : GeometrySafe s) : GeometrySafe s.openCommandRing := by
  obtain ⟨hl, -, hring, hrep, hlog⟩ := s.openCommandRing_ranges
  have hsub : (anchorExtent :: laneExtents s.lanes ++ s.openCommandRing.reportRing.extents ++
      logExtents s.openCommandRing.charges).Sublist s.extents :=
    ((List.sublist_append_left _ _).append hrep).append hlog
  rcases s.openedRing_extents s.anchor.commandBase s.anchor.commandSlots s.reportRing with he | ⟨e, he, hin, hanchor, hapart⟩
  · refine h.sublist ?_
    unfold State.extents at hsub ⊢
    rwa [hl, hring, he, List.append_nil]
  · refine h.insert (e := e) ?_ hsub (fun x hx => ?_) hin
    · unfold State.extents
      rw [hl, hring, he]
      simp only [List.append_assoc]
      exact List.perm_middle (l₁ := anchorExtent :: laneExtents s.lanes)
    · have hx' := (List.Sublist.append (.append (.refl (anchorExtent :: laneExtents s.lanes)) hrep) hlog).subset hx
      simp only [List.mem_append, List.mem_cons] at hx' hapart
      rcases hx' with ((rfl | hx') | hx') | hx'
      · exact hanchor
      · exact hapart x (.inl (.inl hx'))
      · exact hapart x (.inr hx')
      · exact hapart x (.inl (.inr hx'))

theorem State.openReportRing_geometrySafe {s : State} (h : GeometrySafe s) : GeometrySafe s.openReportRing := by
  obtain ⟨hl, -, hcmd, hring, hlog⟩ := s.openReportRing_ranges
  have hsub : (anchorExtent :: laneExtents s.lanes ++ s.openReportRing.commandRing.extents ++
      logExtents s.openReportRing.charges).Sublist s.extents :=
    (((List.Sublist.refl (anchorExtent :: laneExtents s.lanes)).append hcmd).trans (List.sublist_append_left _ _)).append hlog
  rcases s.openedRing_extents s.anchor.reportBase s.anchor.reportSlots s.commandRing with he | ⟨e, he, hin, hanchor, hapart⟩
  · refine h.sublist ?_
    unfold State.extents at hsub ⊢
    rwa [hl, hring, he, List.append_nil]
  · refine h.insert (e := e) ?_ hsub (fun x hx => ?_) hin
    · unfold State.extents
      rw [hl, hring, he, List.append_assoc _ [e]]
      exact List.perm_middle
    · have hx' := (List.Sublist.append (.append (.refl (anchorExtent :: laneExtents s.lanes)) hcmd) hlog).subset hx
      simp only [List.mem_append, List.mem_cons] at hx' hapart
      rcases hx' with ((rfl | hx') | hx') | hx'
      · exact hanchor
      · exact hapart x (.inl (.inl hx'))
      · exact hapart x (.inr hx')
      · exact hapart x (.inl (.inr hx'))

theorem LaneMove.keeps_geometry {s t : State} (h : LaneMove s t) (hs : GeometrySafe s) : GeometrySafe t := by
  cases h with
  | update n l hb hf =>
    have hext : laneExtents (s.lanes.set n l) = laneExtents s.lanes := by
      rw [laneExtents_eq, laneExtents_eq]
      refine List.filterMap_congr fun m _ => ?_
      rw [Four.get_set]
      split
      · subst_vars
        rw [hb]
      · rfl
    refine hs.sublist ?_
    unfold State.extents
    rw [State.setLane_lanes, hext]
    exact .refl _
  | bind n b hbase hlow hhigh hin hc => exact State.bindLane_geometrySafe hin hc hs
  | unbind n b hb => exact State.unbindLane_geometrySafe n b hs
  | region base slots => exact State.runLogRegion_geometrySafe base slots hs

theorem geometrySafe_keptByStep : KeptByStep GeometrySafe := by
  refine keptByStep_of_move fun {s t} hm hs => ?_
  cases hm with
  | quiet h => exact hs.sublist (RangesKept.of_view h.ranges).extents
  | port h => exact hs.sublist h.ranges.extents
  | lane h => exact h.keeps_geometry hs
  | openCommandRing => exact State.openCommandRing_geometrySafe hs
  | openReportRing => exact State.openReportRing_geometrySafe hs
  | cleared h =>
    have hext : t.extents = [anchorExtent] := by
      unfold State.extents
      rw [h.lanes, h.commandRing, h.reportRing]
      simp [laneExtents, Four.all, Lane.unbound, Ring.extents, logExtents, h.current, h.staged]
    unfold GeometrySafe
    rw [hext]
    exact ⟨List.pairwise_singleton _ _, by simp [anchorExtent, Config.storeSize]⟩

end Sys2Proof.Machine

namespace Sys2Proof.Proofs

open Sys2Proof Sys2Proof.Machine

/-- Settles O59: the lanes, the slots' keys and the ranges are kept by every move, and every step is a sequence of moves. -/
theorem stepsKeepLanesSlotsAndRanges : Obligations.StepsKeepLanesSlotsAndRanges :=
  ⟨laneSafe_keptByStep, slotSafe_keptByStep, geometrySafe_keptByStep⟩

end Sys2Proof.Proofs
end

section
namespace Sys2Proof.Machine

/-! ## Classification (R2) -/

/-- The lane of an address is one whose ring it falls in (R2). -/
def State.inRing (s : State) (n : Fin 4) (addr : Nat) : Prop :=
  ∃ b, (s.lanes.get n).binding = some b ∧ b.base ≤ addr ∧ addr < b.base + b.slots * 128

theorem mem_four (n : Fin 4) : n ∈ four := by
  fin_cases n <;> simp [four]

theorem State.laneAt_some {s : State} {addr : Nat} {n : Fin 4} (h : s.laneAt addr = some n) : s.inRing n addr := by
  unfold State.laneAt at h
  have hp := List.find?_some h
  unfold State.inRing
  cases hb : (s.lanes.get n).binding <;> simp_all

theorem State.laneAt_none {s : State} {addr : Nat} (h : s.laneAt addr = none) (n : Fin 4) : ¬ s.inRing n addr := by
  unfold State.laneAt at h
  have hp := List.find?_eq_none.mp h n (mem_four n)
  unfold State.inRing
  cases hb : (s.lanes.get n).binding <;> simp_all

/-- Addresses that fall in the same rings have the same lane. -/
theorem State.laneAt_congr {s : State} {a c : Nat} (h : ∀ n, s.inRing n a ↔ s.inRing n c) : s.laneAt a = s.laneAt c := by
  unfold State.laneAt
  congr 1
  funext n
  have hn := h n
  unfold State.inRing at hn
  cases hb : (s.lanes.get n).binding with
  | none => rfl
  | some b =>
    simp only [hb, Option.some.injEq, exists_eq_left'] at hn
    exact Bool.eq_iff_iff.mpr (by simpa using hn)

/-- A lane ring begins and ends at multiples of 128, so an aligned 64-byte block lies in it or outside it (R17). -/
theorem LaneSafe.inRing_of_block {s : State} (h : LaneSafe s) {a c : Nat} (hblock : a / 64 = c / 64) (n : Fin 4) :
    s.inRing n a ↔ s.inRing n c := by
  have hfits := h.1 n
  unfold State.inRing
  cases hb : (s.lanes.get n).binding with
  | none => simp
  | some b =>
    obtain ⟨-, -, -, hbound⟩ := hfits
    rw [hb] at hbound
    obtain ⟨-, hbase, -⟩ := hbound
    simp only [Option.some.injEq, exists_eq_left']
    omega

theorem State.classify_anchor {s : State} {a : Nat} (h : a < 64) : s.classify a = .anchor := if_pos h

theorem State.classify_of_some {s : State} {a : Nat} {n : Fin 4} (h : 64 ≤ a) (hn : s.laneAt a = some n) :
    s.classify a = .lane n := by
  simp [State.classify, Nat.not_lt.mpr h, hn]

theorem State.classify_of_none {s : State} {a : Nat} (h : 64 ≤ a) (hn : s.laneAt a = none) : s.classify a = .plain := by
  simp [State.classify, Nat.not_lt.mpr h, hn]

theorem State.classify_lane {s : State} {a : Nat} {n : Fin 4} (h : 64 ≤ a) (hn : s.inRing n a)
    (huniq : ∀ m, s.inRing m a → m = n) : s.classify a = .lane n := by
  cases hl : s.laneAt a with
  | none => exact absurd hn (State.laneAt_none hl n)
  | some m => exact huniq m (State.laneAt_some hl) ▸ State.classify_of_some h hl

theorem State.classify_plain {s : State} {a : Nat} (h : 64 ≤ a) (hn : ∀ n, ¬ s.inRing n a) : s.classify a = .plain := by
  cases hl : s.laneAt a with
  | none => exact State.classify_of_none h hl
  | some m => exact absurd (State.laneAt_some hl) (hn m)

/-- Addresses of one aligned 64-byte block have one class. -/
theorem LaneSafe.classify_of_block {s : State} (h : LaneSafe s) {a c : Nat} (hblock : a / 64 = c / 64) :
    s.classify a = s.classify c := by
  by_cases ha : a < 64
  · rw [State.classify_anchor ha, State.classify_anchor (by omega)]
  · have hat := State.laneAt_congr (h.inRing_of_block hblock)
    cases hl : s.laneAt c with
    | none => rw [State.classify_of_none (by omega) (hat.trans hl), State.classify_of_none (by omega) hl]
    | some n => rw [State.classify_of_some (by omega) (hat.trans hl), State.classify_of_some (by omega) hl]

/-- A burst's words lie in one aligned 64-byte block (00_scope.md, section 3). -/
theorem isBurst_iff (addr : Word) (count : Nat) :
    isBurst addr count = true ↔ addr.toNat % 4 = 0 ∧ 1 ≤ count ∧ addr.toNat % 64 + 4 * count ≤ 64 := by
  simp [isBurst, and_assoc]

/-- A transaction just taken stands bound exactly in a lane ring (R2, R5). -/
theorem State.newTxn_bound (s : State) (dir : Direction) (a count : Nat) :
    (s.newTxn dir a count).bound = true ↔ ∃ n, (s.newTxn dir a count).cls = .lane n := by
  unfold State.newTxn
  cases s.classify a <;> simp

theorem MediaTxn.carriesPayload_eq (t : MediaTxn) : t.carriesPayload = decide ¬(t.addr % 128 = 0 ∧ t.count = 1) :=
  Bool.eq_iff_iff.mpr (by simp [MediaTxn.carriesPayload])

/-- The judgement of a lane ring read whose binding stands (R27, R99). -/
theorem State.judgement_read {s : State} {t : MediaTxn} {n : Fin 4} {b : Binding} (hd : t.dir = .read) (hc : t.cls = .lane n)
    (hbound : t.bound = true) (hb : (s.lanes.get n).binding = some b) :
    s.judgement t = some (s.judge b ((s.lanes.get n).entry (b.slotAt t.addr)) t.carriesPayload) := by
  simp [State.judgement, hd, hc, hb, hbound]

/-- No other transaction is judged (R99). -/
theorem State.judgement_none {s : State} {t : MediaTxn}
    (h : t.dir = .write ∨ t.bound = false ∨ ∀ n, t.cls = .lane n → (s.lanes.get n).binding = none) : s.judgement t = none := by
  unfold State.judgement
  split
  · rename_i n hd hc
    rcases h with h | h | h
    · simp [hd] at h
    · split <;> simp [h]
    · rw [h n hc]
  · rfl

/-! ## The arbiter's decision (R13, R14) -/

/-- With no request waiting, no agent is first. -/
theorem State.firstWaiting_none {s : State} (h : s.requests.any = false) : s.firstWaiting = none := by
  refine List.find?_eq_none.mpr fun a _ ha => ?_
  simp [(s.requests.any_iff).mpr ⟨a, ha⟩] at h

/-- A decision for MEDIA: with no house request waiting, or with one and the wait count below 4. -/
theorem State.handOver_media_alone {s : State} (hw : s.working = true) (hm : s.mediaWaits = true) (hf : s.firstWaiting = none) :
    s.handOver = s.grantMedia := by
  simp [State.handOver, hw, hm, hf]

theorem State.handOver_media_first {s : State} {a : Agent} (hw : s.working = true) (hm : s.mediaWaits = true)
    (hf : s.firstWaiting = some a) (hc : s.waitCount < 4) :
    s.handOver = { s.grantMedia with waitCount := s.waitCount + 1 } := by
  simp [State.handOver, hw, hm, hf, hc]

/-- A decision for the house agent first in the rotation order. -/
theorem State.handOver_house {s : State} {a : Agent} (hw : s.working = true) (hm : s.mediaWaits = true → s.waitCount = 4)
    (hf : s.firstWaiting = some a) : s.handOver = { s.grantHouse a with waitCount := 0 } := by
  cases h : s.mediaWaits with
  | false => simp [State.handOver, hw, h, hf]
  | true => simp [State.handOver, hw, h, hf, hm h]

/-- A decision for nobody. -/
theorem State.handOver_free {s : State} (hw : s.working = true) (hm : s.mediaWaits = false) (hf : s.firstWaiting = none) :
    s.handOver = { s with port := .free } := by
  simp [State.handOver, hw, hm, hf]

/-- A house request at a free port of a working part. -/
theorem State.request_free {s : State} (a : Agent) (hp : s.port = .free) (hw : s.working = true) : s.request a = s.grantHouse a :=
  if_pos ⟨hp, hw⟩

theorem State.request_waits {s : State} (a : Agent) (hp : s.port ≠ .free) :
    s.request a = { s with requests := s.requests.put a true } := if_neg fun h => hp h.1

/-- The agent just granted stands last in the rotation order (R13). -/
theorem toEnd_getLast? (order : List Agent) (a : Agent) : (toEnd order a).getLast? = some a := by
  simp [toEnd]

/-- A hand-over changes the arbiter's own items and the media transaction alone. -/
theorem State.handOver_eq (s : State) : s.handOver = { s with
    port := s.handOver.port, media := s.handOver.media, requests := s.handOver.requests
    waitCount := s.handOver.waitCount, rotation := s.handOver.rotation } := by
  rcases s.handOver_cases with ⟨-, e⟩ | ⟨-, -, -, e⟩ | ⟨a, -, -, -, -, e⟩ | ⟨a, -, -, -, e⟩ | ⟨-, -, -, e⟩ <;> rw [e] <;> rfl

/-- Of the media transaction a hand-over changes the phase and the judgement alone. -/
theorem State.handOver_media_some {s : State} {m : MediaTxn} (h : s.handOver.media = some m) :
    ∃ u, s.media = some u ∧ m = { u with phase := m.phase, judged := m.judged } := by
  have hgrant : s.grantMedia.media = some m → ∃ u, s.media = some u ∧ m = { u with phase := m.phase, judged := m.judged } := by
    intro hm
    obtain ⟨u, hu, rfl⟩ := Option.map_eq_some_iff.mp hm
    exact ⟨u, hu, rfl⟩
  rcases s.handOver_cases with ⟨-, e⟩ | ⟨-, -, -, e⟩ | ⟨a, -, -, -, -, e⟩ | ⟨a, -, -, -, e⟩ | ⟨-, -, -, e⟩ <;> rw [e] at h
  · exact ⟨m, h, rfl⟩
  · exact hgrant h
  · exact hgrant h
  · exact ⟨m, h, rfl⟩
  · exact ⟨m, h, rfl⟩

/-! ### Bounded waiting -/

/-- An agent's place in the rotation order falls by one when an agent ahead of it is granted. -/
theorem idxOf_toEnd {order : List Agent} (hd : order.Nodup) {p : Agent → Bool} {a b : Agent} (hb : order.find? p = some b)
    (ha : a ∈ order) (hp : p a = true) (hne : b ≠ a) : (toEnd order b).idxOf a + 1 = order.idxOf a := by
  obtain ⟨-, l, r, rfl, hl⟩ := List.find?_eq_some_iff_append.mp hb
  have hal : a ∉ l := fun h => by simpa [hp] using hl a h
  have har : a ∈ r := by simpa [hal, hne.symm] using ha
  rw [List.nodup_append] at hd
  obtain ⟨-, hdr, hdisj⟩ := hd
  have hlb : ∀ x ∈ l, (x != b) = true := fun x hx => by simpa using hdisj x hx b (by simp)
  have hrb : ∀ x ∈ r, (x != b) = true := fun x hx => by
    simpa using ne_of_mem_of_not_mem hx (List.nodup_cons.mp hdr).1
  have hend : toEnd (l ++ b :: r) b = l ++ (r ++ [b]) := by
    simp [toEnd, List.filter_eq_self.mpr hlb, List.filter_eq_self.mpr hrb]
  rw [hend, List.idxOf_append_of_notMem hal, List.idxOf_append_of_notMem hal, List.idxOf_append_of_mem har,
    List.idxOf_cons_ne _ hne]
  omega

/-- A decision while an agent waits: for MEDIA with the wait count raised, or for the waiting agent first in the rotation
order. -/
theorem State.decision_while_waiting {s : State} {a : Agent} (hw : s.working = true) (ha : s.requests.has a = true)
    (hmem : a ∈ s.rotation) :
    ∃ b, s.firstWaiting = some b ∧
      ((s.waitCount < 4 ∧ s.handOver = { s.grantMedia with waitCount := s.waitCount + 1 }) ∨
        s.handOver = { s.grantHouse b with waitCount := 0 }) := by
  have hsome : s.firstWaiting ≠ none := fun hn => by
    simpa [ha] using List.find?_eq_none.mp hn a hmem
  rcases s.handOver_cases with ⟨h, -⟩ | ⟨-, -, hf, -⟩ | ⟨b, -, -, hf, hc, e⟩ | ⟨b, -, -, hf, e⟩ | ⟨-, -, hf, -⟩
  · simp [hw] at h
  · exact absurd hf hsome
  · exact ⟨b, hf, .inl ⟨hc, e⟩⟩
  · exact ⟨b, hf, .inr e⟩
  · exact absurd hf hsome

/-- How a count over the first decisions splits off the first of them. -/
theorem count_range_succ (p : Nat → Bool) (k : Nat) :
    ((List.range (k + 1)).filter p).length = (p 0).toNat + ((List.range k).filter fun i => p (i + 1)).length := by
  rw [List.range_succ_eq_map, List.filter_cons, List.filter_map]
  cases p 0 <;> simp [Function.comp_def, Nat.add_comm]

theorem agent_mem_rotation {order : List Agent} (h : order.Perm Agent.restartOrder) (a : Agent) : a ∈ order := by
  refine h.mem_iff.mpr ?_
  cases a <;> simp [Agent.restartOrder]

/-- Agent `a` is granted at one of the decisions `s 0, s 1, …`, after at most `m` media grants and `n` grants to others, with the
port given to somebody at each. -/
def GrantedWithin (a : Agent) (s : Nat → State) (m n : Nat) : Prop :=
  ∃ k, grantedTo a (s k) = true ∧
    ((List.range k).filter fun i => grantedMedia (s i)).length ≤ m ∧
    ((List.range k).filter fun i => !grantedMedia (s i)).length ≤ n ∧
    ∀ i < k, (s i).handOver.port ≠ .free

theorem GrantedWithin.now {a : Agent} {s : Nat → State} (h : grantedTo a (s 0) = true) (m n : Nat) : GrantedWithin a s m n :=
  ⟨0, h, by simp, by simp, by simp⟩

/-- A first decision for another adds one grant to the bound of its kind. -/
theorem GrantedWithin.later {a : Agent} {s : Nat → State} {m n m' n' : Nat} (h : GrantedWithin a (fun i => s (i + 1)) m n)
    (hfree : (s 0).handOver.port ≠ .free) (hm : m + (grantedMedia (s 0)).toNat ≤ m')
    (hn : n + (!grantedMedia (s 0)).toNat ≤ n') : GrantedWithin a s m' n' := by
  obtain ⟨k, hk, hkm, hkn, hkf⟩ := h
  refine ⟨k + 1, hk, ?_, ?_, fun i hi => ?_⟩
  · rw [count_range_succ fun i => grantedMedia (s i)]
    exact (Nat.add_comm ..).trans_le ((Nat.add_le_add_right hkm _).trans hm)
  · rw [count_range_succ fun i => !grantedMedia (s i)]
    exact (Nat.add_comm ..).trans_le ((Nat.add_le_add_right hkn _).trans hn)
  · cases i with
    | zero => exact hfree
    | succ i => exact hkf i (Nat.lt_of_succ_lt_succ hi)

/-- A waiting agent at place `p` of the rotation order, at wait count `w`, is granted after at most `4 - w + 4 p` media grants and
`p` other house grants (R14). -/
theorem waiting_agent_granted (a : Agent) (bound : Nat) : ∀ s : Nat → State,
    5 * (s 0).rotation.idxOf a + (4 - (s 0).waitCount) < bound →
    (s 0).rotation.Perm Agent.restartOrder → (s 0).requests.has a = true → (∀ i, (s i).working = true) →
    (∀ i, Arrivals (s i).handOver (s (i + 1))) →
    GrantedWithin a s (4 - (s 0).waitCount + 4 * (s 0).rotation.idxOf a) ((s 0).rotation.idxOf a) := by
  induction bound with
  | zero => intro s hb; exact absurd hb (Nat.not_lt_zero _)
  | succ bound ih =>
    intro s hb hperm ha hwork harr
    have hmem := agent_mem_rotation hperm a
    obtain ⟨hcount, hrot, hreq⟩ := harr 0
    obtain ⟨b, hfirst, ⟨hlow, e⟩ | e⟩ := State.decision_while_waiting (hwork 0) ha hmem
    · have hmedia : grantedMedia (s 0) = true := by rw [grantedMedia, e]; rfl
      rw [e] at hcount hrot hreq
      have hcount : (s (0 + 1)).waitCount = (s 0).waitCount + 1 := hcount
      have hrot : (s (0 + 1)).rotation = (s 0).rotation := hrot
      refine (ih (fun i => s (i + 1)) ?_ (hrot ▸ hperm) (hreq a ha) (fun i => hwork (i + 1)) fun i => harr (i + 1)).later ?_ ?_ ?_
      · simp only [hcount, hrot]; omega
      · rw [e]; exact Port.noConfusion
      · simp only [hcount, hrot, hmedia, Bool.toNat_true]; omega
      · simp only [hrot, hmedia, Bool.not_true, Bool.toNat_false]; omega
    · by_cases hba : b = a
      · exact .now (by rw [grantedTo, e, hba]; exact beq_self_eq_true a) _ _
      · have hmedia : grantedMedia (s 0) = false := by rw [grantedMedia, e]; rfl
        have hplace := idxOf_toEnd (hperm.nodup_iff.mpr (by decide)) hfirst hmem ha hba
        rw [e] at hcount hrot hreq
        have hcount : (s (0 + 1)).waitCount = 0 := hcount
        have hrot : (s (0 + 1)).rotation = toEnd (s 0).rotation b := hrot
        have hstill : (s (0 + 1)).requests.has a = true := 
          hreq a (((s 0).requests.has_put b a false).trans (by rw [if_neg (Ne.symm hba), ha]))
        have hperm' : (s (0 + 1)).rotation.Perm Agent.restartOrder :=
          hrot ▸ toEnd_perm hperm b
        refine (ih (fun i => s (i + 1)) ?_ hperm' hstill (fun i => hwork (i + 1)) fun i => harr (i + 1)).later ?_ ?_ ?_
        · simp only [hcount, hrot]; omega
        · rw [e]; exact Port.noConfusion
        · simp only [hcount, hrot, hmedia, Bool.toNat_false]; omega
        · simp only [hrot, hmedia, Bool.not_false, Bool.toNat_true]; omega

theorem idxOf_rotation_le {order : List Agent} (h : order.Perm Agent.restartOrder) (a : Agent) : order.idxOf a ≤ 2 := by
  have hlt := List.idxOf_lt_length_of_mem (agent_mem_rotation h a)
  have hlen : order.length = 3 := h.length_eq
  omega

/-- A house grant at a decision leaves the wait count at 0. -/
theorem State.waitCount_of_grantedTo {s : State} {a : Agent} (hw : s.working = true) (h : grantedTo a s = true) :
    s.handOver.waitCount = 0 := by
  rcases s.handOver_cases with ⟨hn, -⟩ | ⟨-, -, -, e⟩ | ⟨b, -, -, -, -, e⟩ | ⟨b, -, -, -, e⟩ | ⟨-, -, -, e⟩
  · simp [hw] at hn
  · simp [grantedTo, e, State.grantMedia] at h
  · simp [grantedTo, e, State.grantMedia] at h
  · rw [e]
  · simp [grantedTo, e] at h

end Sys2Proof.Machine

namespace Sys2Proof.Proofs
open Sys2Proof Sys2Proof.Machine

/-- Settles O6: a burst lies in one aligned 64-byte block, and lane rings begin and end at multiples of 128. -/
theorem aBurstFallsInOneClass : Obligations.ABurstFallsInOneClass := by
  unfold Obligations.ABurstFallsInOneClass
  refine ⟨fun s addr count i hsafe hburst hi => ?_, fun s a => ?_, fun s t => ⟨?_, State.judgement_none⟩⟩
  · obtain ⟨-, -, hwithin⟩ := (isBurst_iff addr count).mp hburst
    exact hsafe.classify_of_block (by omega)
  · exact ⟨State.classify_anchor, fun n h hn huniq => State.classify_lane h hn huniq, State.classify_plain,
      fun dir count => ⟨rfl, rfl, rfl, rfl, rfl, rfl, rfl, s.newTxn_bound dir a count⟩⟩
  · intro n b e hd hc hbound hb he
    have hentry : (s.lanes.get n).entry (b.slotAt t.addr) = e := by
      simp [Lane.entry, Binding.slotAt, he]
    rw [State.judgement_read hd hc hbound hb, hentry, t.carriesPayload_eq]

/-- Settles O12: each case of R13 is a branch of the decision. -/
theorem theArbiterHandsOnThePort : Obligations.TheArbiterHandsOnThePort := by
  unfold Obligations.TheArbiterHandsOnThePort
  refine ⟨fun s hw => ⟨?_, ?_, ?_, ?_, ?_, ?_⟩, fun s a h => if_neg (by simp [h]), fun s a h => ⟨?_, toEnd_getLast? _ a⟩,
    fun s => ⟨s.handOver_eq, fun m => State.handOver_media_some⟩⟩
  · exact fun hm hr _ => State.handOver_media_alone hw hm (State.firstWaiting_none hr)
  · exact fun a hm hf hc => State.handOver_media_first hw hm hf hc
  · exact fun a hm hf => State.handOver_house hw hm hf
  · exact fun hm hr => State.handOver_free hw hm (State.firstWaiting_none hr)
  · exact fun a hp => State.request_free a hp hw
  · exact fun a hp => State.request_waits a hp
  · exact toEnd_perm h a

/-- Settles O13, by induction on the decisions that a waiting agent's place and the wait count allow. -/
theorem everyWaitIsBounded : Obligations.EveryWaitIsBounded := by
  unfold Obligations.EveryWaitIsBounded
  refine ⟨fun s a _ hperm ha hwork harr => ?_, fun s u a hs hu hgrant hcount hwaits => ?_⟩
  · obtain ⟨k, hk, hm, hn, hfree⟩ := waiting_agent_granted a _ s (Nat.lt_succ_self _) hperm ha hwork harr
    have hplace := idxOf_rotation_le hperm a
    exact ⟨k, hk, by omega, by omega, hfree⟩
  · have hzero : u.waitCount = 0 := hcount.trans (State.waitCount_of_grantedTo hs hgrant)
    cases hf : u.firstWaiting with
    | none => rw [State.handOver_media_alone hu hwaits hf]; rfl
    | some b => rw [State.handOver_media_first hu hwaits hf (by omega)]; rfl

end Sys2Proof.Proofs
end

section
namespace Sys2Proof.Machine

/-! ## The media port (R1, R2, R6) -/

/-- A burst presented with no tick in progress goes to the media port. -/
theorem exec_commandPhase {s : State} {dir : Direction} {addr : Word} {count : Nat} (hin : inStore addr = true)
    (hburst : isBurst addr count = true) (htick : s.tick = TickWork.none) :
    exec (.mediaCommandPhase dir addr count) s = .next ((s.takeCommandPhase dir addr.toNat count).getD s) := by
  have harm : exec (.mediaCommandPhase dir addr count) s = execMediaCommandPhase dir addr count s := rfl
  rw [harm, execMediaCommandPhase, if_neg (by simp [hin]), if_neg (by simp [hburst]), perform_of_none _ s htick]

theorem State.takeCommandPhase_idle {s : State} (dir : Direction) (addr count : Nat) (hw : s.working = true)
    (hm : s.media = none) : s.takeCommandPhase dir addr count =
      some { s with media := some (s.newTxn dir addr count), presented := [] }.requestMedia := by
  simp [State.takeCommandPhase, hw, hm]

theorem State.takeCommandPhase_busy {s : State} (dir : Direction) (addr count : Nat) (hw : s.working = true)
    (hm : s.media.isSome = true) :
    s.takeCommandPhase dir addr count =
      if s.nextPhase = none then some { s with nextPhase := some ⟨dir, addr, count⟩ } else none := by
  simp [State.takeCommandPhase, hw, Option.isSome_iff_ne_none.mp hm]

/-- A part that does not work takes no command phase (R6). -/
theorem State.takeCommandPhase_of_held {s : State} (dir : Direction) (addr count : Nat) (hw : s.working = false) :
    s.takeCommandPhase dir addr count = none := if_pos hw

theorem State.requestMedia_free {s : State} (hp : s.port = .free) (hw : s.working = true) : s.requestMedia = s.grantMedia :=
  if_pos ⟨hp, hw⟩

theorem State.requestMedia_waits {s : State} (hp : s.port ≠ .free) : s.requestMedia = s := if_neg fun h => hp h.1

theorem State.resumeMedia_eq {s : State} {t : MediaTxn} (hw : s.working = true) (hm : s.media = some t)
    (hp : t.phase = .held) : s.resumeMedia = some { s with media := some { t with phase := .waiting } }.requestMedia := by
  simp [State.resumeMedia, hw, hm, hp]

/-- A transaction in its data phase completes with its last words (R1). -/
theorem State.completeMedia_eq {s : State} {t : MediaTxn} (ws : List WriteWord) (hw : s.working = true) (hm : s.media = some t)
    (hp : s.port = .media) (hd : t.phase = .data) :
    s.completeMedia ws = (s.lastWords t ws).map fun u => u.nextMedia.handOver := by
  simp [State.completeMedia, hw, hm, hp, hd]

theorem State.lastWords_wordByWord {s : State} {t : MediaTxn} (ws : List WriteWord) (h : t.wordByWord = true) (hl : t.left = 0) :
    s.lastWords t ws = some s := by
  simp [State.lastWords, h, hl]

theorem State.lastWords_write {s : State} {t : MediaTxn} {ws : List WriteWord} (h : t.wordByWord = false) (hd : t.dir = .write)
    (hl : ws.length = t.left) : s.lastWords t ws = some (s.passPlain t ws 0) := by
  simp [State.lastWords, h, hd, hl]

theorem State.lastWords_read {s : State} {t : MediaTxn} (ws : List WriteWord) (h : t.wordByWord = false) (hd : t.dir = .read) :
    s.lastWords t ws = some (s.passPlain t [] t.left) := by
  simp [State.lastWords, h, hd]

theorem State.passPlain_write (s : State) {t : MediaTxn} (hd : t.dir = .write) (ws : List WriteWord) (n : Nat) :
    s.passPlain t ws n = { s with
      store := Memory.writeWords s.store t.nextAddr ws, media := some { t with passed := t.passed + ws.length } } := by
  rw [State.passPlain, hd]

theorem State.passPlain_read (s : State) {t : MediaTxn} (hd : t.dir = .read) (ws : List WriteWord) (n : Nat) :
    s.passPlain t ws n = { s with
      presented := s.presented ++ (List.range n).map (fun i => s.readWord t.cls (t.nextAddr + 4 * i))
      media := some { t with passed := t.passed + n } } := by
  rw [State.passPlain, hd]

/-! ## The anchor block (R7, R8, R9) -/

/-- The high half of a byte made of two half bytes. -/
theorem extract_high_half (a b : Nat) (hb : b < 16) : (BitVec.ofNat 8 (16 * a + b)).extractLsb' 4 4 = BitVec.ofNat 4 a := by
  apply BitVec.eq_of_toNat_eq
  simp only [BitVec.extractLsb'_toNat, BitVec.toNat_ofNat, Nat.shiftRight_eq_div_pow]
  omega

/-- The low half of a byte made of two half bytes. -/
theorem extract_low_half (a b : Nat) : (BitVec.ofNat 8 (16 * a + b)).extractLsb' 0 4 = BitVec.ofNat 4 b := by
  apply BitVec.eq_of_toNat_eq
  simp only [BitVec.extractLsb'_toNat, BitVec.toNat_ofNat, Nat.shiftRight_eq_div_pow]
  omega

theorem ringCode_lt (r : Ring) : ringCode r < 16 := by
  cases r <;> simp [ringCode]

/-- A byte of a latch after a written word: the word's own, or what stood there when it is masked (R7). -/
theorem byteOf_mergeWord (old : Word) (w : WriteWord) {i : Nat} (hi : i < 4) :
    byteOf (mergeWord old w) i = if w.masked i then byteOf old i else byteOf w.data i := by
  match i, hi with
  | 0, _ => exact byteOf_be32_0 ..
  | 1, _ => exact byteOf_be32_1 ..
  | 2, _ => exact byteOf_be32_2 ..
  | 3, _ => exact byteOf_be32_3 ..

theorem State.latchBase_command (s : State) (w : WriteWord) {addr : Nat} (h : addr = 0) :
    s.latchBase w addr = { s with anchor := { s.anchor with commandBase := mergeWord s.anchor.commandBase w } } := if_pos h

theorem State.latchBase_report (s : State) (w : WriteWord) {addr : Nat} (h : addr = 32) :
    s.latchBase w addr = { s with anchor := { s.anchor with reportBase := mergeWord s.anchor.reportBase w } } :=
  (if_neg (by omega)).trans (if_pos h)

theorem State.latchBase_other (s : State) (w : WriteWord) {addr : Nat} (h0 : addr ≠ 0) (h32 : addr ≠ 32) :
    s.latchBase w addr = s := (if_neg h0).trans (if_neg h32)

/-- A written anchor word that its row accepts passes to the store and acts on the part unless all its bytes are masked (R7). -/
theorem perform_anchorStep {s : State} {t : MediaTxn} {at? : Nat → Bool} {w : WriteWord} (act : State → Nat → State)
    (htick : s.tick = TickWork.none) (ht : s.wordTxn .write = some t) (hc : t.cls = .anchor) (hat : at? t.nextAddr = true) :
    perform (fun s => s.anchorStep at? w act) s =
      .next (if w.allMasked = true then (s.storeWord t.nextAddr w).passWord t
        else act ((s.storeWord t.nextAddr w).passWord t) t.nextAddr) := by
  have hstep : s.anchorStep at? w act = some (if w.allMasked = true then (s.storeWord t.nextAddr w).passWord t
      else act ((s.storeWord t.nextAddr w).passWord t) t.nextAddr) := by
    simp [State.anchorStep, ht, hc, hat]
  rw [perform_of_none _ s htick, hstep, Option.getD_some]

end Sys2Proof.Machine

namespace Sys2Proof.Proofs
open Sys2Proof Sys2Proof.Machine

/-- Settles O5: a transaction that asks for the store port is granted at once at a free one, and waits otherwise. -/
theorem mediaTransactionsAskForTheStorePort : Obligations.MediaTransactionsAskForTheStorePort := by
  unfold Obligations.MediaTransactionsAskForTheStorePort
  refine ⟨?taken, ?standing, ?stops, ?resume⟩
  case taken =>
    intro dir addr count s hin hburst htick hm hw
    rw [exec_commandPhase hin hburst htick, State.takeCommandPhase_idle _ _ _ hw hm, Option.getD_some]
    exact ⟨fun hp => congrArg _
        (State.requestMedia_free (s := { s with media := some (s.newTxn dir addr.toNat count), presented := [] }) hp hw),
      fun hp => congrArg _ (State.requestMedia_waits hp)⟩
  case standing =>
    intro dir addr count s hin hburst htick
    rw [exec_commandPhase hin hburst htick]
    refine ⟨fun hw => ?_, fun hw hm => ⟨fun hn => ?_, fun hn => ?_⟩⟩
    · rw [State.takeCommandPhase_of_held _ _ _ hw, Option.getD_none]
    · rw [State.takeCommandPhase_busy _ _ _ hw hm, if_pos hn, Option.getD_some]
    · rw [State.takeCommandPhase_busy _ _ _ hw hm, if_neg (Option.isSome_iff_ne_none.mp hn), Option.getD_none]
  case stops =>
    intro dir addr count s
    refine ⟨fun hout => ?_, fun hin hbad => ?_⟩
    · exact if_pos (by simp [inStore, hout])
    · have hburst : isBurst addr count = false := by
        rw [← Bool.not_eq_true, isBurst_iff]
        omega
      exact (if_neg (by simp [inStore, hin])).trans (if_pos hburst)
  case resume =>
    intro s t htick hw hm hp
    have harm : exec .mediaResume s = perform State.resumeMedia s := rfl
    rw [harm, perform_of_none _ s htick, State.resumeMedia_eq hw hm hp, Option.getD_some]
    exact ⟨fun hfree => congrArg _
        (State.requestMedia_free (s := { s with media := some { t with phase := .waiting } }) hfree hw),
      fun hfree => congrArg _ (State.requestMedia_waits hfree), fun hb => State.judgement_none (.inr (.inl hb))⟩

/-- Settles O7: the last words pass by `State.lastWords`, and the hand-over follows the next command phase. -/
theorem aMediaTransactionCompletes : Obligations.AMediaTransactionCompletes := by
  unfold Obligations.AMediaTransactionCompletes
  intro s t words htick hw hm hp hd next
  have harm : exec (.mediaTransactionComplete words) s = perform (fun s => s.completeMedia words) s := rfl
  rw [harm, perform_of_none _ s htick, State.completeMedia_eq words hw hm hp hd]
  refine ⟨fun hown hleft => ?_, fun hown hdir hlen => ⟨?_, fun b hb => ?_⟩, fun hown hdir => ?_⟩
  · rw [State.lastWords_wordByWord words hown hleft]
    rfl
  · rw [State.lastWords_write hown hdir hlen, State.passPlain_write s hdir]
    rfl
  · exact Memory.read_writeWords_frame words _ _ _ (hlen ▸ hb)
  · rw [State.lastWords_read words hown hdir, State.passPlain_read s hdir]
    rfl

/-- Settles O8: the part word by its four bytes, each code by its state. -/
theorem theAnchorBlockReadsThePartsOwnWords : Obligations.TheAnchorBlockReadsThePartsOwnWords := by
  unfold Obligations.TheAnchorBlockReadsThePartsOwnWords
  intro s a
  have hpart : s.readWord .anchor 16 = partWord s := rfl
  rw [hpart, partWord, byteOf_be32_0, byteOf_be32_1, byteOf_be32_2, byteOf_be32_3, extract_high_half _ _ (ringCode_lt _),
    extract_low_half]
  refine ⟨rfl, fun base n h hr => ?_, fun hr => ?_, fun base n h hr => ?_, fun hr => ?_, fun h12 h44 h16 => ?_, rfl,
    ?_, ?_, ?_, ?_⟩
  · exact congrArg (fun r => BitVec.ofNat 32 (Ring.head r)) hr
  · rcases hr with hr | hr <;> exact congrArg (fun r => BitVec.ofNat 32 (Ring.head r)) hr
  · exact congrArg (fun r => BitVec.ofNat 32 (Ring.head r)) hr
  · rcases hr with hr | hr <;> exact congrArg (fun r => BitVec.ofNat 32 (Ring.head r)) hr
  · simp [State.readWord, State.anchorWord, h12, h44, h16]
  · cases s.supply <;> rfl
  · cases s.stay.state <;> rfl
  · cases s.commandRing <;> rfl
  · cases s.reportRing <;> rfl

/-- Settles O9: each row of an anchor word accepts its own addresses, and the word acts by `State.anchorStep`. -/
theorem aWrittenAnchorWordPasses : Obligations.AWrittenAnchorWordPasses := by
  unfold Obligations.AWrittenAnchorWordPasses
  intro s t w htick ht hc p
  have hrow : ∀ (at? : Nat → Bool) (act : State → Nat → State), at? t.nextAddr = true →
      perform (fun s => s.anchorStep at? w act) s = .next (if w.allMasked = true then p else act p t.nextAddr) :=
    fun at? act => perform_anchorStep act htick ht hc
  have hanchor : ownBehaviour t.nextAddr = false → (!ownBehaviour t.nextAddr) = true := fun h => by simp [h]
  refine ⟨fun b hb => Memory.read_writeWord_frame _ _ _ w hb, fun hs i hi => Memory.read_writeWord_byte _ _ _ w hs hi,
    fun old i hi => byteOf_mergeWord old w hi, fun hmask => ?_, fun hmask => ?_⟩
  · simp only [hmask, if_true] at hrow
    exact ⟨fun h => hrow _ _ (hanchor h), fun h => hrow _ _ (beq_iff_eq.mpr h), fun h => hrow _ _ (beq_iff_eq.mpr h),
      fun h => hrow _ _ (beq_iff_eq.mpr h), fun h => hrow _ _ (beq_iff_eq.mpr h)⟩
  · simp only [hmask, Bool.false_eq_true, if_false] at hrow
    refine ⟨fun h => ?_, fun h => ?_, fun h h0 h32 => ?_, fun h => ?_, fun h => ?_⟩
    · exact (hrow _ _ (hanchor (by rw [h]; rfl))).trans (congrArg _ (p.latchBase_command w h))
    · exact (hrow _ _ (hanchor (by rw [h]; rfl))).trans (congrArg _ (p.latchBase_report w h))
    · exact (hrow _ _ (hanchor h)).trans (congrArg _ (p.latchBase_other w h0 h32))
    · exact hrow _ _ (beq_iff_eq.mpr h)
    · exact hrow _ _ (beq_iff_eq.mpr h)

end Sys2Proof.Proofs
end

section
namespace Sys2Proof.Machine

/-! ## The opens of the two rings (R10, R11, R147, R149) -/

theorem State.openedRing_valid {s : State} {base slots : Word} {other : Ring} (h : s.geometryValid base slots other = true) :
    s.openedRing base slots other = .inForce base.toNat slots.toNat 0 := if_pos h

theorem State.openedRing_invalid {s : State} {base slots : Word} {other : Ring} (h : ¬ s.geometryValid base slots other = true) :
    s.openedRing base slots other = .badGeometry := if_neg h

/-- At an open of the command ring a waiting fetch is withdrawn; while MEDIA holds the store port none is orphaned (R11). -/
theorem State.orphanFetch_of_media {s : State} (hp : s.port = .media) : s.orphanFetch = { s with
    fetch := if s.requests.command then none else s.fetch
    requests := { s.requests with command := false }
    waitCount := if s.requests.command && !(s.requests.report || s.requests.log) then 0 else s.waitCount } := by
  cases hc : s.requests.command with
  | false =>
    have hreq : { s.requests with command := false } = s.requests := by rw [← hc]
    have hsame : s.orphanFetch = s := by rw [State.orphanFetch, if_neg (by simp [hc]), hp]
    rw [hsame, hreq]
    rfl
  | true =>
    cases hr : s.requests.report <;> cases hl : s.requests.log <;>
      simp [State.orphanFetch, State.withdraw, Requests.put, Requests.any, hc, hr, hl]

theorem State.openCommandRing_of_media {s : State} (hp : s.port = .media) : s.openCommandRing = { s with
    commandRing := s.openedRing s.anchor.commandBase s.anchor.commandSlots s.reportRing
    fetch := if s.requests.command then none else s.fetch
    requests := { s.requests with command := false }
    waitCount := if s.requests.command && !(s.requests.report || s.requests.log) then 0 else s.waitCount } := by
  rw [State.openCommandRing, State.orphanFetch_of_media hp]

/-- Reports placed at the head of the queue, which holds 16: what does not fit is dropped at the tail and sets the overflow mark
(R145). -/
def State.placed (s : State) (rs : List Report) : State :=
  { s with reports := (rs ++ s.reports).take 16, overflow := s.overflow || decide (16 < (rs ++ s.reports).length) }

theorem State.placed_nil {s : State} (h : s.reports.length ≤ 16) : s.placed [] = s := by
  simp [State.placed, List.take_of_length_le h, Nat.not_lt.mpr h]

theorem State.placed_length (s : State) (rs : List Report) : (s.placed rs).reports.length ≤ 16 := List.length_take_le ..

/-- One report placed first. -/
theorem State.placeFirst_eq {s : State} (h : s.reports.length ≤ 16) (r : Report) : s.placeFirst r = s.placed [r] := by
  rcases s.placeFirst_cases r with ⟨hl, e⟩ | ⟨hl, e⟩ <;> rw [e, State.placed]
  · have htake : (r :: s.reports).take 16 = r :: s.reports := List.take_of_length_le hl
    simp [htake, Nat.not_lt.mpr (Nat.succ_le_iff.mpr hl)]
  · have hlen : s.reports.length = 16 := Nat.le_antisymm h hl
    simp [hlen, List.dropLast_eq_take]

/-- A report placed first under a condition. -/
theorem State.placeFirst_ite {s : State} (h : s.reports.length ≤ 16) (c : Bool) (r : Report) :
    (if c = true then s.placeFirst r else s) = s.placed (if c = true then [r] else []) := by
  cases c with
  | false => exact (State.placed_nil h).symm
  | true => exact State.placeFirst_eq h r

/-- With no report being written, a kind of report is under way exactly when the queue holds one (R149). -/
theorem State.underWay_idle {s : State} (h : s.reportWrite = none) (kind : Report → Bool) :
    s.underWay kind = s.reports.any kind := by
  simp [State.underWay, h]

/-- The report of the lift mark that an open places, if none is in the queue (R149). -/
def State.liftReports (s : State) (queue : List Report) : List Report :=
  if s.liftMark && !queue.any Report.isLiftRestart then [⟨.event (.liftEnded .restart), false⟩] else []

/-- The report of the cause flags that an open places, if none is in the queue (R149). -/
def State.causeReports (s : State) (queue : List Report) : List Report :=
  if s.causes.any && !queue.any Report.isRestarted then [⟨.event (.restarted s.causes), false⟩] else []

/-- The reports that an open places, while no report is being written (R149). -/
theorem State.placeRestartReports_eq {s : State} (hw : s.reportWrite = none) (hq : s.reports.length ≤ 16) :
    s.placeRestartReports =
      (s.placed (s.liftReports s.reports)).placed (s.causeReports (s.placed (s.liftReports s.reports)).reports) := by
  unfold State.placeRestartReports
  dsimp only
  rw [State.placeFirst_ite hq, State.placeFirst_ite (State.placed_length _ _), State.underWay_idle hw]
  have hlift : (if (s.liftMark && !s.reports.any Report.isLiftRestart) = true then [⟨.event (.liftEnded .restart), false⟩]
      else []) = s.liftReports s.reports := rfl
  rw [hlift, State.underWay_idle (s := s.placed _) hw]
  rfl

/-- At an open of the report ring a report write in progress whose request waits is withdrawn, and its report returns to the head
of the queue (R11, R147). -/
theorem State.orphanReport_of_waits {s : State} (hr : s.requests.report = s.reportWrite.isSome)
    (hq : s.reports.length ≤ 16) : s.orphanReport = { s.placed (s.reportWrite.map ReportWrite.report).toList with
      reportWrite := none
      requests := { s.requests with report := false }
      waitCount := if s.requests.report && !(s.requests.command || s.requests.log) then 0 else s.waitCount } := by
  cases hw : s.reportWrite with
  | none =>
    rw [hw] at hr
    have hreq : { s.requests with report := false } = s.requests := congrArg (fun b => { s.requests with report := b }) hr.symm
    have hsame : s.orphanReport = s := by rw [State.orphanReport, hw]
    simp only [hreq, hr, Option.map_none, Option.toList_none, State.placed_nil hq, Option.isSome_none, Bool.false_and,
      Bool.false_eq_true, if_false]
    rw [hsame, ← hw]
  | some w =>
    rw [hw] at hr
    have hplace : s.orphanReport = { (s.withdraw .report).placeFirst w.report with reportWrite := none } := by
      rw [State.orphanReport, hw]
      exact if_pos hr
    rw [hplace, State.placeFirst_eq (s := s.withdraw .report) hq]
    cases hc : s.requests.command <;> cases hl : s.requests.log <;>
      simp [State.withdraw, State.placed, Requests.put, Requests.any, hr, hc, hl]

/-- The report ring's open from its latched words, where a report write in progress waits for the store port. -/
theorem State.openReportRing_of_waits {s : State} (hr : s.requests.report = s.reportWrite.isSome)
    (hq : s.reports.length ≤ 16) (ring : Ring)
    (hring : s.openedRing s.anchor.reportBase s.anchor.reportSlots s.commandRing = ring) :
    let u := { s.placed (s.reportWrite.map ReportWrite.report).toList with
      reportWrite := none
      requests := { s.requests with report := false }
      waitCount := if s.requests.report && !(s.requests.command || s.requests.log) then 0 else s.waitCount
      reportRing := ring }
    s.openReportRing =
      (if ring.isOpen = true then
        (u.placed (u.liftReports u.reports)).placed (u.causeReports (u.placed (u.liftReports u.reports)).reports)
      else u).refreshAttention := by
  intro u
  unfold State.openReportRing
  dsimp only
  rw [hring, State.orphanReport_of_waits hr hq]
  have hplace : u.placeRestartReports =
      (u.placed (u.liftReports u.reports)).placed (u.causeReports (u.placed (u.liftReports u.reports)).reports) :=
    State.placeRestartReports_eq rfl (State.placed_length _ _)
  rw [← hplace]

end Sys2Proof.Machine

namespace Sys2Proof.Proofs
open Sys2Proof Sys2Proof.Machine

/-- Settles O10: `State.geometryValid` is the seven conditions, and while MEDIA holds the store port no fetch is orphaned. -/
theorem theCommandRingOpens : Obligations.TheCommandRingOpens := by
  unfold Obligations.TheCommandRingOpens
  intro s t w htick ht hc haddr hmask n b e valid
  have hp : s.port = .media := ((s.wordTxn_some .write t).mp ht).2.2.1
  have hvalid : s.geometryValid b n s.reportRing = true ↔ valid := s.geometryValid_iff b n s.reportRing
  refine ⟨s.openedRing b n s.reportRing, fun h => State.openedRing_valid (hvalid.mpr h),
    fun h => State.openedRing_invalid (mt hvalid.mp h), ?_⟩
  have hrun : exec (.commandRingSlots w) s = _ :=
    perform_anchorStep (fun s _ => s.writeCommandSlots w) htick ht hc (beq_iff_eq.mpr haddr)
  rw [haddr] at hrun
  exact hrun.trans (congrArg _ ((if_neg (by simp [hmask])).trans (State.openCommandRing_of_media (s := { s with
    anchor := { s.anchor with commandSlots := n }
    store := Memory.writeWord s.store 4 w
    media := some { t with passed := t.passed + 1 } }) hp)))

/-- Settles O11: an open that leaves the ring OPEN places its reports by `State.placed`. -/
theorem theReportRingOpens : Obligations.TheReportRingOpens := by
  unfold Obligations.TheReportRingOpens
  intro s t w htick ht hc haddr hmask hr hq n b e valid withdrawn queue lift lifted restarted
  have hvalid : s.geometryValid b n s.commandRing = true ↔ valid := s.geometryValid_iff b n s.commandRing
  have hrun : exec (.reportRingSlots w) s = _ :=
    perform_anchorStep (fun s _ => s.writeReportSlots w) htick ht hc (beq_iff_eq.mpr haddr)
  rw [haddr] at hrun
  have hopen := fun ring => State.openReportRing_of_waits (s := { s with
    anchor := { s.anchor with reportSlots := n }
    store := Memory.writeWord s.store 36 w
    media := some { t with passed := t.passed + 1 } }) hr hq ring
  by_cases hv : valid
  · have hline : (0 != s.anchor.reportTail.toNat % n.toNat) = decide (0 ≠ s.anchor.reportTail.toNat % n.toNat) :=
      Bool.eq_iff_iff.mpr (by simp)
    refine ⟨.inForce b.toNat n.toNat 0, _, _, _, fun _ => ⟨rfl, rfl, rfl, hline⟩, fun h => absurd hv h, ?_⟩
    exact hrun.trans (congrArg _ ((if_neg (by simp [hmask])).trans
      (hopen _ (State.openedRing_valid (hvalid.mpr hv)))))
  · refine ⟨.badGeometry, _, _, _, fun h => absurd h hv, fun _ => ⟨rfl, rfl, rfl, rfl⟩, ?_⟩
    exact hrun.trans (congrArg _ ((if_neg (by simp [hmask])).trans
      (hopen _ (State.openedRing_invalid (mt hvalid.mp hv)))))

end Sys2Proof.Proofs
end

section
namespace Sys2Proof.Machine

/-! ## The words of lane ring transactions (R4, R5, R106) -/

/-- A word written to a lane ring by the row of its kind passes to the store, and to the lane engine while its transaction's
binding stands (R4, R5). -/
theorem perform_laneWriteStep {s : State} {t : MediaTxn} {n : Fin 4} {header : Bool} {w : WriteWord}
    (take : State → Fin 4 → Nat → State) (htick : s.tick = TickWork.none) (ht : s.wordTxn .write = some t)
    (hc : t.cls = .lane n) (hh : decide (t.nextAddr % 128 = 0) = header) :
    perform (fun s => s.laneWriteStep header w take) s =
      .next (if t.bound = true then take ((s.storeWord t.nextAddr w).passWord t) n t.nextAddr
        else (s.storeWord t.nextAddr w).passWord t) := by
  have hstep : s.laneWriteStep header w take =
      some (if t.bound = true then take ((s.storeWord t.nextAddr w).passWord t) n t.nextAddr
        else (s.storeWord t.nextAddr w).passWord t) := by
    simp [State.laneWriteStep, ht, hc, hh]
  rw [perform_of_none _ s htick, hstep, Option.getD_some]

theorem State.raiseEvent?_store (s : State) (e : Option Event) : (s.raiseEvent? e).store = s.store := by
  cases e with
  | none => rfl
  | some e => exact s.raiseEvent_store e

/-- A header write never touches the store beyond its word (R4). -/
theorem State.takeHeader_store (s : State) (n : Fin 4) (addr : Nat) (w : WriteWord) :
    (s.takeHeader n addr w).store = s.store := by
  unfold State.takeHeader
  split
  · rfl
  · split
    · rfl
    · exact State.raiseEvent?_store _ _

/-- Nor does a payload write (R4). -/
theorem State.takePayload_store (s : State) (n : Fin 4) (addr : Nat) (w : WriteWord) :
    (s.takePayload n addr w).store = s.store := by
  unfold State.takePayload
  split
  · split
    · dsimp only
      split
      · exact congrArg PathView.store (State.applyNotice_quiet _ _ _).path
      · rfl
    · rfl
  · rfl

/-- A header word with all four bytes masked is no header write (R16). -/
theorem State.takeHeader_masked (s : State) (n : Fin 4) (addr : Nat) {w : WriteWord} (h : w.allMasked = true) :
    s.takeHeader n addr w = s := by
  unfold State.takeHeader
  split
  · rfl
  · exact if_pos h

/-- A header write to a bound lane replaces the lane and hands the event of its move (R21, R22). -/
theorem State.takeHeader_bound {s : State} {n : Fin 4} {b : Binding} (addr : Nat) {w : WriteWord}
    (hb : (s.lanes.get n).binding = some b) (hw : w.allMasked = false) :
    let moved := (s.lanes.get n).header b (s.slotOf b.service) (b.slotAt addr) w
    s.takeHeader n addr w = (s.setLane n moved.1).raiseEvent? (moved.2.event n b.service) := by
  simp [State.takeHeader, hb, hw]

/-- A word of a burst without judgement is presented as stored (R5). -/
theorem State.laneReadStep_unjudged {s : State} {t : MediaTxn} {n : Fin 4} (ht : s.wordTxn .read = some t) (hc : t.cls = .lane n)
    (hj : t.judged = none) : s.laneReadStep =
      some ({ s with presented := s.presented ++ [Memory.readWord s.store t.nextAddr] }.passWord t) := by
  simp [State.laneReadStep, ht, hc, hj]

/-- A word of a judged burst is presented by the judgement, and the first payload word takes the first read (R27, R106). -/
theorem State.laneReadStep_judged {s : State} {t : MediaTxn} {n : Fin 4} {j : Judgement} (ht : s.wordTxn .read = some t)
    (hc : t.cls = .lane n) (hj : t.judged = some j) : s.laneReadStep =
      some (({ s with presented := s.presented ++ [presentWord j t.nextAddr (Memory.readWord s.store t.nextAddr)] }.firstPayload
        t n j).passWord { t with judged := some (j.afterWord t.nextAddr) }) := by
  simp [State.laneReadStep, ht, hc, hj]

theorem presentWord_header (j : Judgement) {addr : Nat} (h : addr % 128 = 0) (x : Word) : presentWord j addr x = j.header x :=
  if_pos h

theorem presentWord_payload (j : Judgement) {addr : Nat} (h : addr % 128 ≠ 0) (x : Word) :
    presentWord j addr x = j.treatment.present (addr % 128 / 4 - 1) x := if_neg h

theorem Judgement.afterWord_header (j : Judgement) {addr : Nat} (h : addr % 128 = 0) : j.afterWord addr = j :=
  if_neg (not_not.mpr h)

theorem Judgement.afterWord_payload (j : Judgement) {addr : Nat} (h : addr % 128 ≠ 0) :
    j.afterWord addr = { j with firstRead := false, mark := none } := if_pos h

/-- No first read is taken by a header word, nor by a burst that is none. -/
theorem State.firstPayload_none (s : State) {t : MediaTxn} (n : Fin 4) {j : Judgement}
    (h : t.nextAddr % 128 = 0 ∨ j.firstRead = false) : s.firstPayload t n j = s := by
  refine if_neg fun ⟨hp, hf⟩ => ?_
  rcases h with h | h
  · exact hp h
  · exact Bool.false_ne_true (h.symm.trans hf)

/-- The titles after a seen mark is handed (R70). -/
def State.markedTitles (s : State) : Option (BitVec 16 × Role) → List TitleEntry
  | some m => (s.applyMark m).titles
  | none => s.titles

/-- The first payload word of a first read makes the slot's entry READ and hands the seen mark (R27, R70). -/
theorem State.firstPayload_first {s : State} {t : MediaTxn} {n : Fin 4} {j : Judgement} {b : Binding} (ha : t.nextAddr % 128 ≠ 0)
    (hj : j.firstRead = true) (hb : (s.lanes.get n).binding = some b) :
    s.firstPayload t n j = { s.markRead n (b.slotAt t.nextAddr) with titles := s.markedTitles j.mark } := by
  unfold State.firstPayload
  rw [if_pos ⟨ha, hj⟩, hb]
  cases j.mark <;> rfl

/-! ## UNBIND (R19, R48) -/

theorem laneOf_of_lt {lane : Byte} {n : Fin 4} (h : n.val = lane.toNat) : laneOf lane = some n := by
  unfold laneOf
  rw [dif_pos (h ▸ n.isLt)]
  exact congrArg some (Fin.ext h.symm)

theorem laneOf_none {lane : Byte} (h : 3 < lane.toNat) : laneOf lane = none := dif_neg (by omega)

theorem State.runUnbind_badFormat (s : State) {lane : Byte} (h : laneOf lane = none) :
    s.runUnbind lane = (s, .badFormat, .absent) := by
  rw [State.runUnbind, h]

theorem State.runUnbind_idle {s : State} {lane : Byte} {n : Fin 4} (h : laneOf lane = some n)
    (hb : (s.lanes.get n).binding = none) : s.runUnbind lane = (s, .laneIdle, .absent) := by
  simp [State.runUnbind, h, hb]

theorem State.runUnbind_bound {s : State} {lane : Byte} {n : Fin 4} {b : Binding} (h : laneOf lane = some n)
    (hb : (s.lanes.get n).binding = some b) : s.runUnbind lane = (s.unbindLane n b, .done, .absent) := by
  simp [State.runUnbind, h, hb]

/-- A service slot in use loses one reference, and is cleared at the last (R48). -/
theorem State.leaveSlot_used {s : State} {service : Byte} {i : Fin 4} {v : ServiceSlot} (hi : s.slotIndex service = some i)
    (hv : s.slots.get i = some v) :
    s.leaveSlot service = s.setSlot i (if v.refs ≤ 1 then none else some { v with refs := v.refs - 1 }) := by
  simp [State.leaveSlot, hi, hv]

/-- A command of the command ring that its fetch carries answers what its owner runs (R143). -/
theorem answers_of_takes {c : Instr} {tag : Word} {code : Byte} {run : State → State × Answer} {s u : State} {a : Answer}
    (harm : exec c s = execCommand c tag code run s) (h : s.takes c) (hrun : run s = (u, a)) : Answers c tag code s u a := by
  rw [Answers, harm, execCommand_of_takes c tag code run s h, hrun]

end Sys2Proof.Machine

namespace Sys2Proof.Proofs
open Sys2Proof Sys2Proof.Machine

/-- Settles O14: one word by its row, and the lane engine behind it while the binding stands. -/
theorem aLaneRingWritePasses : Obligations.ALaneRingWritePasses := by
  unfold Obligations.ALaneRingWritePasses
  intro s t n w htick ht hc p
  have hheader : t.nextAddr % 128 = 0 → exec (.headerWrite w) s = _ := fun h =>
    perform_laneWriteStep (w := w) (fun s n a => s.takeHeader n a w) htick ht hc (decide_eq_true h)
  have hpayload : t.nextAddr % 128 ≠ 0 → exec (.payloadWrite w) s = _ := fun h =>
    perform_laneWriteStep (w := w) (fun s n a => s.takePayload n a w) htick ht hc (decide_eq_false h)
  refine ⟨fun b hb => Memory.read_writeWord_frame _ _ _ w hb, fun hs i hi => Memory.read_writeWord_byte _ _ _ w hs hi,
    fun ha hb => (hheader ha).trans (congrArg _ (if_pos hb)), fun ha hb => (hpayload ha).trans (congrArg _ (if_pos hb)),
    fun hb => ⟨fun ha => (hheader ha).trans (congrArg _ (if_neg (by simp [hb]))),
      fun ha => (hpayload ha).trans (congrArg _ (if_neg (by simp [hb])))⟩,
    p.takeHeader_store n _ w, p.takePayload_store n _ w, p.takeHeader_masked n _, ?_⟩
  intro b hb hw m
  have htake : p.takeHeader n t.nextAddr w = (p.setLane n m.1).raiseEvent? (m.2.event n b.service) :=
    State.takeHeader_bound (s := p) t.nextAddr hb hw
  exact ⟨fun h => htake.trans (by rw [h]; rfl), fun h => htake.trans (by rw [h]; rfl), fun h => htake.trans (by rw [h]; rfl)⟩

/-- Settles O26, by the judgement of the burst and the place of the word in its slot. -/
theorem aLaneReadWordIsPresented : Obligations.ALaneReadWordIsPresented := by
  unfold Obligations.ALaneReadWordIsPresented
  refine ⟨fun j k x => ⟨fun i hi => ?_, byteOf_be32_3 .., rfl, rfl, fun key service continuity => rfl⟩, ?_⟩
  · match i, hi with
    | 0, _ => exact byteOf_be32_0 ..
    | 1, _ => exact byteOf_be32_1 ..
    | 2, _ => exact byteOf_be32_2 ..
  · intro s t n htick ht hc x
    have harm : exec .laneReadWord s = .next ((s.laneReadStep).getD s) := perform_of_none _ s htick
    rw [harm]
    refine ⟨fun hj => ?_, fun j hj ha => ?_, fun j hj ha hf => ?_, fun j b hj ha hf hb => ?_⟩
    · rw [State.laneReadStep_unjudged ht hc hj]
      rfl
    · rw [State.laneReadStep_judged ht hc hj, presentWord_header j ha, j.afterWord_header ha,
        State.firstPayload_none _ n (.inl ha), ← hj]
      rfl
    · rw [State.laneReadStep_judged ht hc hj, presentWord_payload j ha, j.afterWord_payload ha,
        State.firstPayload_none _ n (.inr hf)]
      rfl
    · have hfirst := State.firstPayload_first (s := { s with presented :=
        s.presented ++ [j.treatment.present (t.nextAddr % 128 / 4 - 1) (Memory.readWord s.store t.nextAddr)] }) ha hf hb
      rw [State.laneReadStep_judged ht hc hj, presentWord_payload j ha, j.afterWord_payload ha, hfirst]
      cases j.mark <;> rfl

/-- Settles O38, by the three outcomes of `State.runUnbind`. -/
theorem unbindFreesTheLane : Obligations.UnbindFreesTheLane := by
  unfold Obligations.UnbindFreesTheLane
  intro tag lane s htakes c
  have hanswer : ∀ {u a}, s.runUnbind lane = (u, a) → Answers c tag 0x0B s u a := answers_of_takes (exec_unbind tag lane s) htakes
  refine ⟨fun h => hanswer (s.runUnbind_badFormat (laneOf_none h)), fun n hn => ⟨fun hb => ?_, fun b i v hb hi hv => ?_⟩⟩
  · exact hanswer (State.runUnbind_idle (laneOf_of_lt hn) hb)
  · have hrun := State.runUnbind_bound (laneOf_of_lt hn) hb
    have hleave := State.leaveSlot_used (s := s.setLane n Lane.unbound) hi hv
    rw [State.unbindLane, hleave] at hrun
    refine ⟨fun hlast => ?_, fun hmore => ?_⟩
    · rw [if_pos hlast] at hrun
      exact hanswer hrun
    · rw [if_neg (Nat.not_le.mpr hmore)] at hrun
      exact hanswer hrun

end Sys2Proof.Proofs
end

section
namespace Sys2Proof.Machine

/-! ## What a house write leaves in the store (R124, R146, R163) -/

/-- The fields of an event fit the 24 bytes of a report's payload (section 12.5). -/
theorem eventFields_length (e : Event) : (eventFields e).length ≤ 24 := by
  cases e <;> simp [eventFields, nat8, nat16, nat32, zeros]

/-- So do the fields of a result (section 12.5). -/
theorem payloadFields_length (p : Payload) : (payloadFields p).length ≤ 24 := by
  cases p <;> simp [payloadFields, nat8, nat16, nat32, zeros]

/-- A report record is 32 bytes (section 12.5). -/
theorem reportBytes_length (body : ReportBody) (lost : Bool) : (reportBytes body lost).length = 32 := by
  cases body with
  | result tag code r p => simp [reportBytes, padTo_length 24 _ (payloadFields_length p)]
  | event e => simp [reportBytes, zeros, padTo_length 24 _ (eventFields_length e)]

/-- A charge record is 32 bytes (section 12.6). -/
theorem chargeBytes_length (c : ChargeRecord) : (chargeBytes c).length = 32 := by
  unfold chargeBytes
  split <;> simp [nat32, zeros]

/-- A record written by its words stands in the store byte for byte. -/
theorem Memory.read_writeWords_record {m : List Host.Cell} {bytes : List Byte} (hm : Memory.wf m = true)
    (hlen : bytes.length = 32) (a : Nat) {i : Nat} (hi : i < 32) :
    Memory.read (Memory.writeWords m a ((toWords bytes).map houseWord)) (a + i) = bytes.getD i 0 := by
  obtain ⟨hwords, hbytes⟩ := ofWords_toWords 8 bytes hlen
  rw [Memory.read_writeWords_house _ m a i hm (by omega), hbytes]

/-- A house write leaves every byte outside its words (R124, R146). -/
theorem Memory.read_houseWords_frame (m : List Host.Cell) (a : Nat) (data : List Word) {b : Nat}
    (h : b < a ∨ a + 4 * data.length ≤ b) :
    Memory.read (Memory.writeWords m a (data.map houseWord)) b = Memory.read m b :=
  Memory.read_writeWords_frame _ m a b (by rwa [List.length_map])

/-! ## Fetches (R142, R143) -/

/-- The five conditions of a fetch (R142). -/
theorem State.fetchDue_iff (s : State) : s.fetchDue = true ↔ ∃ base n h, s.commandRing = .inForce base n h ∧
    h ≠ s.anchor.commandTail.toNat % n ∧ s.fetch = none ∧ s.reports.length ≤ 8 ∧ s.reportRingFull = false := by
  unfold State.fetchDue
  cases s.commandRing <;> simp [and_assoc]

theorem State.beginFetch_due {s : State} (hw : s.working = true) (h : s.fetchDue = true) :
    s.beginFetch = some ({ s with fetch := some s.commandRing.head }.request .command) := by
  simp [State.beginFetch, hw, h]

theorem State.beginFetch_idle {s : State} (h : ¬ s.fetchDue = true) : s.beginFetch = none := by
  simp [State.beginFetch, h]

/-- A fetch granted reads the record of its slot (R142). -/
theorem State.grantHouse_command {s : State} {base n h slot : Nat} (hr : s.commandRing = .inForce base n h)
    (hf : s.fetch = some slot) : s.grantHouse .command = { s with
      port := .house .command (base + slot * 32) [] false
      requests := { s.requests with command := false }
      rotation := toEnd s.rotation .command } := by
  have haddr : s.houseAddr .command = base + slot * 32 := by rw [State.houseAddr, hr, hf]
  rw [State.grantHouse, haddr]
  rfl

theorem State.handOver_port_free {s : State} (hw : s.working = true) (hm : s.mediaWaits = false) (hf : s.firstWaiting = none) :
    s.handOver.port = .free := by
  rw [State.handOver_free hw hm hf]

/-- A handed report joins the queue, or, with 16 there, is dropped and sets the overflow mark (R145). -/
theorem State.hand_eq (s : State) (b : ReportBody) : s.hand b = { s with
    reports := if s.reports.length < 16 then s.reports ++ [⟨b, false⟩] else s.reports
    overflow := if s.reports.length < 16 then s.overflow else true } := by
  unfold State.hand
  split <;> rfl

/-- The record that the fetch at the store port reads, read from the store byte by byte (R142). -/
theorem State.fetched_iff (s : State) (c : Instr) : s.fetched = some c ↔ ∃ addr data, s.port = .house .command addr data false ∧
    decodeRecord ((List.range 32).map (fun i => Memory.read s.store (addr + i))) = c := by
  unfold State.fetched
  split
  · rename_i addr data hp
    rw [Memory.ofWords_readWords, hp, Option.some.injEq]
    constructor
    · exact fun h => ⟨addr, data, rfl, h⟩
    · rintro ⟨addr', data', hport, h⟩
      injection hport with _ haddr
      exact haddr ▸ h
  · rename_i hp
    constructor
    · exact fun h => nomatch h
    · rintro ⟨addr, data, hport, -⟩
      exact absurd hport (hp addr data)

/-! ## The report writer (R146, R147) -/

/-- The ring is full when the head + 1 equals the latched tail, modulo the slot count (R146). -/
theorem State.reportRingFull_iff (s : State) : s.reportRingFull = true ↔
    ∃ base n h, s.reportRing = .inForce base n h ∧ (h + 1) % n = s.anchor.reportTail.toNat % n := by
  unfold State.reportRingFull
  cases s.reportRing <;> simp

theorem State.takeReport_dropped {s : State} {r : Report} {rest : List Report} (hq : s.reports = r :: rest)
    (hw : s.working = true) (hi : s.reportWrite = none) (hr : s.reportRing.isOpen = false ∨ s.reportRingFull = true) :
    s.takeReport = some { s with reports := [], overflow := true } := by
  simp only [State.takeReport, hq, hw, hi, hr, and_self, if_true]

theorem State.takeReport_begins {s : State} {r : Report} {rest : List Report} (hq : s.reports = r :: rest)
    (hw : s.working = true) (hi : s.reportWrite = none) (hr : ¬ (s.reportRing.isOpen = false ∨ s.reportRingFull = true)) :
    s.takeReport = some ({ s with
      reports := rest
      reportWrite := some ⟨{ r with lost := r.lost || s.overflow }, s.reportRing.place, false⟩
      overflow := false }.request .report) := by
  simp only [State.takeReport, hq, hw, hi, hr, and_self, if_true, if_false]

/-- The attention line's condition while the report ring is OPEN (R151). -/
theorem State.attentionDue_inForce {s : State} {base n h : Nat} (hr : s.reportRing = .inForce base n h) :
    s.attentionDue = decide (h ≠ s.anchor.reportTail.toNat % n) := by
  rw [State.attentionDue, hr]
  exact Bool.eq_iff_iff.mpr (by simp)

theorem State.completeReport_eq {s : State} {addr : Nat} {data : List Word} {w : ReportWrite} (hw : s.working = true)
    (hp : s.port = .house .report addr data false) (hr : s.reportWrite = some w) : s.completeReport =
      some ({ (s.houseWrite addr data).clearMarks w.report with
        reportRing := s.reportRing.advance, reportWrite := none }.refreshAttention).handOver := by
  simp [State.completeReport, hp, hr, hw]

/-! ## The LOG agent (R124, R125) -/

/-- The oldest unwritten record is the first with its written flag clear (R124). -/
theorem ChargeUnit.nextUnwritten_first {c : ChargeUnit} {before after : List ChargeItem} {i : ChargeItem}
    (hlist : c.list = before ++ i :: after) (hbefore : ∀ x ∈ before, x.written = true) (hi : i.written = false) :
    c.nextUnwritten = some i.record := by
  have hfirst : c.list.find? (fun i => !i.written) = some i :=
    List.find?_eq_some_iff_append.mpr ⟨by simp [hi], before, after, hlist, fun x hx => by simp [hbefore x hx]⟩
  rw [ChargeUnit.nextUnwritten, hfirst, Option.map_some]

theorem State.beginLog_due {s : State} {g : LogRegion} {c : ChargeRecord} (hw : s.working = true)
    (hg : s.charges.current = some g) (hc : s.charges.nextUnwritten = some c) (hi : s.charges.write = none) : s.beginLog =
      some ({ s with charges := { s.charges with write := some ⟨c, g.base + g.index * 32, true⟩ } }.request .log) := by
  simp [State.beginLog, hg, hc, hi, hw]

theorem State.completeLog_eq {s : State} {addr : Nat} {data : List Word} {w : LogWrite} (hw : s.working = true)
    (hp : s.port = .house .log addr data false) (hc : s.charges.write = some w) : s.completeLog =
      some ({ s.houseWrite addr data with charges := { s.charges with
        list := if w.listed then markWritten s.charges.list w.record.sequence else s.charges.list
        write := none } }.advanceRegion).handOver := by
  simp [State.completeLog, hp, hc, hw, State.houseWrite]

/-- The write index advances in a region that is not yet full (R124). -/
theorem State.advanceRegion_within {s : State} {g : LogRegion} (hg : s.charges.current = some g) (h : g.index + 1 ≠ g.slots) :
    s.advanceRegion = { s with charges := { s.charges with current := some { g with index := g.index + 1 } } } := by
  simp [State.advanceRegion, hg, h]

/-- A full region gives way to the staged one, and the report says so (R125). -/
theorem State.advanceRegion_staged {s : State} {g : LogRegion} {st : StagedRegion} (hg : s.charges.current = some g)
    (h : g.index + 1 = g.slots) (hst : s.charges.staged = some st) : s.advanceRegion =
      { s with charges := { s.charges with current := some ⟨st.base, st.slots, 0⟩, staged := none } }.raiseEvent
        (.logRegionNeeded .stagedTaken s.charges.waiting) := by
  simp [State.advanceRegion, hg, h, hst, StagedRegion.toCurrent]

/-- With none staged, a full region leaves no region (R125). -/
theorem State.advanceRegion_lost {s : State} {g : LogRegion} (hg : s.charges.current = some g)
    (h : g.index + 1 = g.slots) (hst : s.charges.staged = none) : s.advanceRegion =
      { s with charges := { s.charges with current := none } }.raiseEvent (.logRegionNeeded .noneLeft s.charges.waiting) := by
  simp [State.advanceRegion, hg, h, hst]

/-! ## Orphans (R11) -/

theorem State.discardHouse_eq {s : State} {a : Agent} {addr : Nat} {data : List Word} (hw : s.inRun = true)
    (hp : s.port = .house a addr data true) : s.discardHouse = some ((s.houseWrite addr data).dropOrphan a).handOver := by
  simp [State.discardHouse, hp, hw]

end Sys2Proof.Machine

namespace Sys2Proof.Proofs
open Sys2Proof Sys2Proof.Machine

/-- Settles O27: `State.fetchDue` is the five conditions. -/
theorem aFetchBeginsUnderItsFiveConditions : Obligations.AFetchBeginsUnderItsFiveConditions := by
  unfold Obligations.AFetchBeginsUnderItsFiveConditions
  intro s htick hw
  have harm : exec .commandFetchRequest s = .next (s.beginFetch.getD s) := perform_of_none _ s htick
  rw [harm]
  refine ⟨fun base n h hring htail hfetch hqueue hfull => ?_, fun hunmet => ?_⟩
  · have hhead : s.commandRing.head = h := by rw [hring]; rfl
    rw [State.beginFetch_due hw (s.fetchDue_iff.mpr ⟨base, n, h, hring, htail, hfetch, hqueue, hfull⟩), hhead, Option.getD_some]
    exact ⟨fun hp => congrArg _ ((State.request_free (s := { s with fetch := some h }) .command hp hw).trans
      (State.grantHouse_command hring rfl)), fun hp => congrArg _ (State.request_waits .command hp)⟩
  · rw [State.beginFetch_idle, Option.getD_none]
    intro hdue
    obtain ⟨base, n, h, hring, htail, hfetch, hqueue, hfull⟩ := s.fetchDue_iff.mp hdue
    rcases hunmet with hu | hu | hu | hu | hu
    · simp [hring, Ring.isOpen] at hu
    · simp [hfetch] at hu
    · omega
    · simp [hfull] at hu
    · exact htail (hu base n h hring)

/-- Settles O28: the result is handed, the head advances, and the hand-over keeps the rest. -/
theorem aFetchFinishesAndQueuesItsReport : Obligations.AFetchFinishesAndQueuesItsReport := by
  unfold Obligations.AFetchFinishesAndQueuesItsReport
  refine ⟨?finish, ?queue, fun s c => ?_⟩
  case finish =>
    intro u tag code a t
    have ht : t = { u.hand (.result tag code a.1 a.2) with commandRing := u.commandRing.advance, fetch := none }.handOver := rfl
    have hring : t.commandRing = u.commandRing.advance := by rw [ht, State.handOver_commandRing]
    have hreports : t.reports = (u.hand (.result tag code a.1 a.2)).reports := by rw [ht, State.handOver_reports]
    have hoverflow : t.overflow = (u.hand (.result tag code a.1 a.2)).overflow := by rw [ht, State.handOver_overflow]
    rw [State.hand_eq] at ht hreports hoverflow
    refine ⟨?_, by simp [ht], fun base n h hr => by rw [hring, hr]; rfl, fun hlt => ?_, fun hge => ?_, fun hw hr hm => ?_, ?_⟩
    · rw [ht]
      cases u.commandRing <;> rfl
    · rw [hreports, hoverflow]
      exact ⟨if_pos hlt, if_pos hlt⟩
    · rw [hreports, hoverflow]
      exact ⟨if_neg (Nat.not_lt.mpr hge), if_neg (Nat.not_lt.mpr hge)⟩
    · rw [ht]
      exact State.handOver_port_free hw hm (State.firstWaiting_none hr)
    · simp [t]
  case queue =>
    intro s b r
    refine ⟨fun hlt => ⟨if_pos hlt, if_pos hlt⟩, fun hge => ⟨if_neg (Nat.not_lt.mpr hge), if_neg (Nat.not_lt.mpr hge)⟩⟩
  · rw [s.fetchReady_iff, s.fetched_iff, Option.isSome_iff_exists]

/-- Settles O44, by the two outcomes of a report that is taken. -/
theorem aReportIsTakenFromTheQueue : Obligations.AReportIsTakenFromTheQueue := by
  unfold Obligations.AReportIsTakenFromTheQueue
  refine ⟨fun s r rest htick hw hi hq => ?_, State.reportRingFull_iff⟩
  have harm : exec .reportTake s = .next (s.takeReport.getD s) := perform_of_none _ s htick
  rw [harm]
  refine ⟨fun hr => by rw [State.takeReport_dropped hq hw hi hr, Option.getD_some], ?_⟩
  intro base n h hring hfull w p
  have hplace : s.reportRing.place = base + h * 32 := by rw [hring]; rfl
  rw [State.takeReport_begins hq hw hi (by simp [hring, hfull, Ring.isOpen]), hplace, Option.getD_some]
  exact ⟨fun hp => congrArg _ (State.request_free (s := p) .report hp hw),
    fun hp => congrArg _ (State.request_waits (s := p) .report hp)⟩

/-- Settles O45: the completion as one update of the state, and the record byte for byte. -/
theorem aReportWriteCompletes : Obligations.AReportWriteCompletes := by
  unfold Obligations.AReportWriteCompletes
  intro s addr base n h data w htick hw hp hr hring p
  have harm : exec .reportWriteComplete s = .next (s.completeReport.getD s) := perform_of_none _ s htick
  refine ⟨?_, p.handOver_store, fun hs => ⟨fun i => Memory.read_writeWords_house data _ _ i hs, fun hdata i hi => ?_⟩,
    fun b => Memory.read_houseWords_frame _ _ data⟩
  · have hadvance : s.reportRing.advance = .inForce base n ((h + 1) % n) := by rw [hring]; rfl
    rw [harm, State.completeReport_eq hw hp hr, hadvance, State.refreshAttention, State.attentionDue_inForce rfl]
    rfl
  · subst hdata
    exact Memory.read_writeWords_record hs (reportBytes_length _ _) addr hi

/-- Settles O46: the first unwritten record begins, and the region advances in the three ways of R124 and R125. -/
theorem aLogWriteBeginsAndCompletes : Obligations.ALogWriteBeginsAndCompletes := by
  unfold Obligations.ALogWriteBeginsAndCompletes
  refine ⟨?begins, ?completes⟩
  case begins =>
    intro s g before after i htick hw hg hi hlist hbefore hunwritten place p
    have harm : exec .logWriteBegin s = .next (s.beginLog.getD s) := perform_of_none _ s htick
    rw [harm, State.beginLog_due hw hg (ChargeUnit.nextUnwritten_first hlist hbefore hunwritten) hi, Option.getD_some]
    exact ⟨fun hp => congrArg _ (State.request_free (s := p) .log hp hw),
      fun hp => congrArg _ (State.request_waits (s := p) .log hp)⟩
  case completes =>
    intro s addr data w g htick hw hp hwrite hg list waiting p
    have harm : exec .logWriteComplete s = .next (s.completeLog.getD s) := perform_of_none _ s htick
    rw [harm, State.completeLog_eq hw hp hwrite, Option.getD_some]
    refine ⟨fun h => ?_, fun st h hst => ?_, fun h hst => ?_, fun hs => ⟨fun i => Memory.read_writeWords_house data _ _ i hs, ?_⟩,
      fun b => Memory.read_houseWords_frame _ _ data⟩
    · exact congrArg Host.Outcome.next (congrArg State.handOver (State.advanceRegion_within (s := p) hg h))
    · exact congrArg Host.Outcome.next (congrArg State.handOver (State.advanceRegion_staged (s := p) hg h hst))
    · exact congrArg Host.Outcome.next (congrArg State.handOver (State.advanceRegion_lost (s := p) hg h hst))
    · intro hdata i hi
      subst hdata
      exact Memory.read_writeWords_record hs (chargeBytes_length _) addr hi

/-- Settles O47: an orphan ends by its store write and `State.dropOrphan` alone. -/
theorem anOrphanChangesNothingButTheStore : Obligations.AnOrphanChangesNothingButTheStore := by
  unfold Obligations.AnOrphanChangesNothingButTheStore
  intro s a addr data htick hw hp p
  have harm : exec .houseAccessDiscarded s = .next (s.discardHouse.getD s) := perform_of_none _ s htick
  refine ⟨?_, p.handOver_commandRing, p.handOver_reportRing, p.handOver_reports, p.handOver_charges, fun hs i hi => ?_,
    fun b hb => ?_⟩
  · rw [harm, State.discardHouse_eq hw hp, State.dropOrphan_eq]
    rfl
  · rw [State.handOver_store]
    exact Memory.read_writeWords_house data _ _ i hs hi
  · rw [State.handOver_store]
    exact Memory.read_houseWords_frame _ _ data hb

end Sys2Proof.Proofs
end

section
namespace Sys2Proof.Machine

/-! ## The restart (R161) -/

/-- The entries that a restart keeps (R81). -/
theorem keptTitles_eq (es : List TitleEntry) : keptTitles es =
    (es.filter fun e => decide (e.state ≠ .offered)).map fun e => { e with seenMain := false, seenMosaic := false } := by
  have htest : (fun e : TitleEntry => e.state != .offered) = fun e => decide (e.state ≠ .offered) :=
    funext fun e => Bool.eq_iff_iff.mpr (by simp)
  rw [keptTitles, htest]
  rfl

/-- What a restart keeps is kept by the next. -/
theorem keptTitles_keptTitles (es : List TitleEntry) : keptTitles (keptTitles es) = keptTitles es := by
  have hkept : ∀ e ∈ keptTitles es, (e.state != .offered) = true := by
    intro e he
    obtain ⟨u, hu, rfl⟩ := List.mem_map.mp he
    exact (List.mem_filter.mp hu).2
  have hmap : (keptTitles es).map TitleEntry.unseen = keptTitles es := by
    rw [keptTitles, List.map_map]
    rfl
  calc keptTitles (keptTitles es) = (keptTitles es).map TitleEntry.unseen := by
        rw [keptTitles, List.filter_eq_self.mpr hkept]
    _ = keptTitles es := hmap

theorem State.restart_media (s : State) (cause : Cause) : (s.restart cause).media = s.media.map MediaTxn.unbound := by
  rcases s.restart_cases cause with ⟨-, h⟩ | ⟨-, h⟩ <;> rw [h] <;> rfl

theorem State.restart_requests (s : State) (cause : Cause) : (s.restart cause).requests = Requests.none := by
  rcases s.restart_cases cause with ⟨-, h⟩ | ⟨-, h⟩ <;> rw [h] <;> rfl

theorem State.restart_working (s : State) (cause : Cause) : (s.restart cause).working = s.working := by
  rcases s.restart_cases cause with ⟨-, h⟩ | ⟨-, h⟩ <;> rw [h] <;> rfl

/-- No house agent waits after a restart (R15). -/
theorem State.restart_firstWaiting (s : State) (cause : Cause) : (s.restart cause).firstWaiting = none :=
  State.firstWaiting_none (by rw [s.restart_requests cause]; rfl)

/-- A media transaction that waits still waits after a restart (R15). -/
theorem State.restart_mediaWaits (s : State) (cause : Cause) : (s.restart cause).mediaWaits = s.mediaWaits := by
  rw [State.mediaWaits, State.mediaWaits, s.restart_media cause]
  cases s.media <;> rfl

theorem exec_restart_of_takes {tag : Word} {s : State} (h : s.takes (.restart tag)) :
    exec (.restart tag) s = .next (s.restart .command).handOver := by
  obtain ⟨htick, hready⟩ := h
  have harm : exec (.restart tag) s = execRestart tag s := rfl
  rw [harm, execRestart, perform_of_none _ s htick, if_pos hready, Option.getD_some]

end Sys2Proof.Machine

namespace Sys2Proof.Proofs
open Sys2Proof Sys2Proof.Machine

/-- Settles O42: a restart is `State.warmRestart`, followed for cause COLD by the cold defaults. -/
theorem aRestartClearsVolatileState : Obligations.ARestartClearsVolatileState := by
  unfold Obligations.ARestartClearsVolatileState
  refine ⟨fun tag s htakes => ⟨exec_restart_of_takes htakes, ?_, ?_, fun hm => ?_, fun hm => ?_⟩, fun s cause => ?_,
    rfl, rfl, rfl⟩
  · rw [State.handOver_reports]
    rfl
  · rw [State.handOver_fetch]
    rfl
  · have hw := (s.restart_working .command).trans ((s.fetchReady_iff _).mp htakes.2).1
    rw [State.handOver_media_alone hw ((s.restart_mediaWaits _).trans hm) (s.restart_firstWaiting _)]
    rfl
  · have hw := (s.restart_working .command).trans ((s.fetchReady_iff _).mp htakes.2).1
    exact State.handOver_port_free hw ((s.restart_mediaWaits _).trans hm) (s.restart_firstWaiting _)
  · rcases s.restart_cases cause with ⟨rfl, h⟩ | ⟨hwarm, h⟩
    · rw [h]
      exact ⟨rfl, rfl, rfl, rfl, rfl, rfl, rfl, rfl, rfl, rfl, rfl, rfl, rfl, rfl, rfl, rfl, rfl, rfl, rfl, rfl, rfl,
        fun m hm => congrArg (Option.map MediaTxn.unbound) hm, nofun, nofun, fun h => h.elim nofun nofun,
        fun _ => ⟨rfl, rfl, rfl, rfl, rfl, rfl, rfl, rfl, rfl⟩, nofun, fun hp => congrArg Port.orphaned hp,
        fun hp => congrArg Port.orphaned hp, fun a addr data o hp => congrArg Port.orphaned hp, fun h => absurd rfl h⟩
    · have hmark : ∀ {c}, cause = c → (s.warmRestart cause).liftMark = liftMarkAfter c s.liftMark s.lock.lift :=
        fun hc => congrArg (liftMarkAfter · s.liftMark s.lock.lift) hc
      rw [h]
      exact ⟨rfl, rfl, rfl, rfl, rfl, rfl, rfl, rfl, rfl, rfl, rfl, rfl, rfl, rfl, rfl, rfl, rfl, rfl, rfl, rfl, rfl,
        fun m hm => congrArg (Option.map MediaTxn.unbound) hm, fun hc => congrArg s.causes.after hc,
        fun hc => congrArg s.causes.after hc,
        fun hc => hc.elim hmark hmark, fun hc => absurd hc hwarm, fun hc => ⟨congrArg s.causes.after hc, hmark hc⟩,
        fun hp => congrArg Port.orphaned hp, fun hp => congrArg Port.orphaned hp,
        fun a addr data o hp => congrArg Port.orphaned hp,
        fun _ => ⟨rfl, rfl, rfl, rfl, rfl, rfl, rfl, rfl, rfl, rfl, keptTitles_eq s.titles⟩⟩

end Sys2Proof.Proofs
end

section
namespace Sys2Proof.Machine

/-! ## The cut of a media transaction (R6, R158, R159) -/

/-- How many words of a transaction have passed when it is cut, with `n` of the words that have no row of their own (R158). -/
def MediaTxn.cutAt (m : MediaTxn) (n : Nat) : Nat :=
  if m.phase = .data ∧ m.wordByWord = false then m.passed + min n m.left else m.passed

theorem MediaTxn.cutAt_own {m : MediaTxn} (n : Nat) (h : ¬ (m.phase = .data ∧ m.wordByWord = false)) :
    m.cutAt n = m.passed := if_neg h

theorem MediaTxn.cutAt_burst {m : MediaTxn} (n : Nat) (h : m.phase = .data ∧ m.wordByWord = false) :
    m.cutAt n = m.passed + min n m.left := if_pos h

theorem MediaTxn.dir_cases (m : MediaTxn) : m.dir = .read ∨ m.dir = .write := by
  cases m.dir <;> simp

theorem MediaTxn.left_eq_zero (m : MediaTxn) : m.left = 0 ↔ m.count ≤ m.passed := Nat.sub_eq_zero_iff_le

theorem State.cutMedia_none {s : State} (ws : List WriteWord) (hm : s.media = none) : s.cutMedia ws = s := by
  rw [State.cutMedia, hm]

/-- The words that pass with a cut, for a transaction in its data phase without a row for each word (R158). -/
theorem State.passPlain_media (s : State) (m : MediaTxn) (ws : List WriteWord) :
    (s.passPlain m (ws.take m.left) (min ws.length m.left)).media =
      some { m with passed := m.passed + min ws.length m.left } := by
  rcases m.dir_cases with hd | hd
  · rw [s.passPlain_read hd]
  · rw [s.passPlain_write hd, List.length_take, Nat.min_comm]

/-- A cut of a transaction whose words have their own rows, or that is not in its data phase, passes no word. -/
theorem State.cutMedia_own {s : State} {m : MediaTxn} (ws : List WriteWord) (hm : s.media = some m)
    (h : ¬ (m.phase = .data ∧ m.wordByWord = false)) : s.cutMedia ws = { s with
      media := if m.phase = .data ∧ m.left = 0 then none else some { m with phase := .held } } := by
  simp only [State.cutMedia, hm, if_neg h]

/-- A cut of any other transaction passes the words that its operand counts (R158; log entry 8). -/
theorem State.cutMedia_burst {s : State} {m : MediaTxn} (ws : List WriteWord) (hm : s.media = some m)
    (h : m.phase = .data ∧ m.wordByWord = false) :
    s.cutMedia ws = { s.passPlain m (ws.take m.left) (min ws.length m.left) with
      media := if m.phase = .data ∧ { m with passed := m.cutAt ws.length }.left = 0 then none
        else some { m with phase := .held, passed := m.cutAt ws.length } } := by
  simp only [State.cutMedia, hm, if_pos h, State.passPlain_media, MediaTxn.cutAt_burst _ h]

/-- A cut transaction is complete in its data phase with no word left, and held at its next word otherwise (R6, R158). -/
theorem State.cutMedia_media {s : State} {m : MediaTxn} (ws : List WriteWord) (hm : s.media = some m) :
    (s.cutMedia ws).media = if m.phase = .data ∧ m.count ≤ m.cutAt ws.length then none
      else some { m with phase := .held, passed := m.cutAt ws.length } := by
  by_cases h : m.phase = .data ∧ m.wordByWord = false
  · rw [State.cutMedia_burst ws hm h]
    simp only [MediaTxn.left_eq_zero]
  · rw [State.cutMedia_own ws hm h, MediaTxn.cutAt_own _ h]
    simp only [MediaTxn.left_eq_zero]

theorem State.cutMedia_held {s : State} {m : MediaTxn} (ws : List WriteWord) (hm : s.media = some m)
    (h : m.phase ≠ .data ∨ m.cutAt ws.length < m.count) :
    (s.cutMedia ws).media = some { m with phase := .held, passed := m.cutAt ws.length } := by
  rw [State.cutMedia_media ws hm, if_neg]
  rintro ⟨hp, hc⟩
  exact h.elim (fun h => h hp) (fun h => Nat.not_le.mpr h hc)

theorem State.cutMedia_complete {s : State} {m : MediaTxn} (ws : List WriteWord) (hm : s.media = some m)
    (hp : m.phase = .data) (h : m.count ≤ m.cutAt ws.length) : (s.cutMedia ws).media = none := by
  rw [State.cutMedia_media ws hm, if_pos ⟨hp, h⟩]

/-- A cut touches the store only for a plain write in its data phase (R158). -/
theorem State.cutMedia_store_kept {s : State} (ws : List WriteWord)
    (h : ∀ m, s.media = some m → m.phase = .data → m.dir = .read ∨ m.wordByWord = true) :
    (s.cutMedia ws).store = s.store := by
  cases hm : s.media with
  | none => rw [State.cutMedia_none ws hm]
  | some m =>
    by_cases hb : m.phase = .data ∧ m.wordByWord = false
    · have hread : m.dir = .read := (h m hm hb.1).resolve_right (by simp [hb.2])
      rw [State.cutMedia_burst ws hm hb, s.passPlain_read hread]
    · rw [State.cutMedia_own ws hm hb]

theorem State.cutMedia_store_idle {s : State} (ws : List WriteWord) (h : s.media.map MediaTxn.phase ≠ some .data) :
    (s.cutMedia ws).store = s.store :=
  State.cutMedia_store_kept ws fun m hm hp => absurd (by rw [hm, Option.map_some, hp]) h

theorem State.cutMedia_port (s : State) (ws : List WriteWord) : (s.cutMedia ws).port = s.port := by
  rw [s.cutMedia_keeps ws]

theorem State.cutMedia_store_write {s : State} {m : MediaTxn} (ws : List WriteWord) (hm : s.media = some m)
    (hp : m.phase = .data) (hd : m.dir = .write) (hown : m.wordByWord = false) :
    (s.cutMedia ws).store = Memory.writeWords s.store m.nextAddr (ws.take m.left) := by
  rw [State.cutMedia_burst ws hm ⟨hp, hown⟩, s.passPlain_write hd]

/-- The store outside the words that passed of a cut transaction (R158). -/
theorem State.cutMedia_store_frame {s : State} {m : MediaTxn} (ws : List WriteWord) (hm : s.media = some m)
    (hp : m.phase = .data) {b : Nat}
    (h : m.dir = .read ∨ m.wordByWord = true ∨ b < m.nextAddr ∨ m.nextAddr + 4 * min ws.length m.left ≤ b) :
    Memory.read (s.cutMedia ws).store b = Memory.read s.store b := by
  by_cases hkept : m.dir = .read ∨ m.wordByWord = true
  · rw [State.cutMedia_store_kept ws fun u hu _ => Option.some.inj (hm.symm.trans hu) ▸ hkept]
  · have hd : m.dir = .write := m.dir_cases.resolve_left fun hr => hkept (.inl hr)
    have hown : m.wordByWord = false := by simpa using fun hw => hkept (.inr hw)
    rw [State.cutMedia_store_write ws hm hp hd hown]
    refine Memory.read_writeWords_frame _ _ _ b ?_
    rw [List.length_take, Nat.min_comm]
    exact (or_assoc.mpr h).resolve_left hkept

/-! ## The entry to RETAIN (R154, R158) -/

/-- A house access cut at the entry to RETAIN has stored the words that passed (R158). -/
theorem State.cutBurst_store_house {s : State} {a : Agent} {addr : Nat} {data : List Word} {o : Bool} (ws : List WriteWord)
    (hp : s.port = .house a addr data o) :
    (s.cutBurst ws).store = Memory.writeWords s.store addr ((data.take ws.length).map houseWord) := by
  rw [State.cutBurst, hp]
  rfl

theorem State.cutBurst_store_kept {s : State} (ws : List WriteWord) (hp : s.port = .free ∨ s.port = .media) :
    (s.cutBurst ws).store = s.store := by
  rcases hp with hp | hp <;> rw [State.cutBurst, hp]

/-- The retained contents are the owners' alone: the written flags and the seen flags are no part of them (R157). -/
theorem State.retained_of_kept {s t : State} (hkey : t.siteKey = s.siteKey) (htariff : t.tariff = s.tariff)
    (hstay : t.stay = s.stay) (hlock : t.lock = s.lock) (htitles : t.titles = keptTitles s.titles)
    (hcharges : t.charges = s.charges.volatileCleared) : t.retained = s.retained := by
  have hrecords : t.charges.list.map ChargeItem.record = s.charges.list.map ChargeItem.record := by
    rw [hcharges]
    exact List.map_map
  rw [State.retained, State.retained, hrecords, hkey, htariff, hstay, hlock, htitles, keptTitles_keptTitles, hcharges]
  rfl

/-- The retained items that the entry to RETAIN leaves (R154). -/
theorem State.enterRetainStep_eq (s : State) (ws : List WriteWord) :
    s.enterRetainStep ws = { s.clearVolatile with
      store := ((s.cutMedia ws).cutBurst ws).store
      media := (s.cutMedia ws).media.map MediaTxn.unbound
      presented := (s.cutMedia ws).presented
      port := .free
      nextPhase := none
      supply := .retain
      checkWord := some s.computeCheck
      causes := Causes.none
      liftMark := false } := by
  have hburst : (s.cutMedia ws).cutBurst ws =
      { s.cutMedia ws with store := ((s.cutMedia ws).cutBurst ws).store, port := .free } := by
    unfold State.cutBurst
    split <;> rfl
  rw [State.enterRetainStep, hburst, s.cutMedia_keeps ws]
  rfl

theorem State.enterRetainStep_retained (s : State) (ws : List WriteWord) : (s.enterRetainStep ws).retained = s.retained := by
  rw [s.enterRetainStep_eq ws]
  exact State.retained_of_kept rfl rfl rfl rfl rfl rfl

theorem State.enterRetainStep_checkWord (s : State) (ws : List WriteWord) :
    (s.enterRetainStep ws).checkWord = some s.computeCheck := rfl

theorem State.computeCheck_congr {s t : State} (h : t.retained = s.retained) : t.computeCheck = s.computeCheck := by
  rw [State.computeCheck, State.computeCheck, h]

theorem State.checkHolds_of_held {s : State} {w : Word} (h : s.checkWord = some w) (hw : s.computeCheck = w) :
    s.checkHolds = true := by
  rw [State.checkHolds, h, hw, decide_eq_true rfl]

theorem exec_enterRetain_of_due {s : State} (ws : List WriteWord) (htick : s.tick = TickWork.none) (h : s.supply = .run 31) :
    exec (.enterRetain ws) s = .next (s.enterRetainStep ws) := by
  have harm : exec (.enterRetain ws) s = execEnterRetain ws s := rfl
  rw [harm, execEnterRetain, perform_of_none _ s htick, if_pos h, Option.getD_some]

end Sys2Proof.Machine

namespace Sys2Proof.Proofs
open Sys2Proof Sys2Proof.Machine

/-- Settles O52: the entry to RETAIN cuts the media transaction, then the house access, and clears what is volatile. -/
theorem enteringRetainSealsTheRetainedStore : Obligations.EnteringRetainSealsTheRetainedStore := by
  unfold Obligations.EnteringRetainSealsTheRetainedStore
  intro s passed htick hrun
  have hretained := s.enterRetainStep_retained passed
  have hcheck := State.computeCheck_congr hretained
  have hholds := State.checkHolds_of_held (s.enterRetainStep_checkWord passed) hcheck
  have hrecords := congrArg Retained.records hretained
  have hport := s.cutMedia_port passed
  refine ⟨_, exec_enterRetain_of_due passed htick hrun, ?_⟩
  rw [s.enterRetainStep_eq passed] at *
  refine ⟨rfl, rfl, hcheck, hholds, hretained, rfl, rfl, fun hm => ?_, fun m hm => ⟨fun h => ?_, fun hp h => ?_⟩,
    rfl, rfl, rfl, rfl, rfl, rfl, rfl, rfl, rfl, rfl, rfl, rfl, rfl, rfl, rfl, rfl, rfl, rfl, rfl, rfl, hrecords, rfl, rfl,
    rfl, rfl, rfl, rfl, fun hp hm => ?_, fun a addr data o hp hm => ⟨?_, fun b hb => ?_⟩,
    fun m hp hm hd => ⟨fun h => ?_, fun hw hown => ?_, fun b hb => ?_⟩⟩
  · dsimp only
    rw [State.cutMedia_none passed hm, hm, Option.map_none]
  · dsimp only
    rw [State.cutMedia_held passed hm h]
    rfl
  · dsimp only
    rw [State.cutMedia_complete passed hm hp h, Option.map_none]
  · exact (State.cutBurst_store_kept passed (.inl (hport.trans hp))).trans (State.cutMedia_store_idle passed hm)
  · refine (State.cutBurst_store_house passed (hport.trans hp)).trans ?_
    rw [State.cutMedia_store_idle passed hm]
  · dsimp only
    rw [State.cutBurst_store_house passed (hport.trans hp), State.cutMedia_store_idle passed hm]
    exact Memory.read_houseWords_frame _ _ _ (by rwa [List.length_take])
  · refine (State.cutBurst_store_kept passed (.inr (hport.trans hp))).trans (State.cutMedia_store_kept passed fun u hu _ => ?_)
    exact Option.some.inj (hm.symm.trans hu) ▸ h
  · exact (State.cutBurst_store_kept passed (.inr (hport.trans hp))).trans (State.cutMedia_store_write passed hm hd hw hown)
  · dsimp only
    rw [State.cutBurst_store_kept passed (.inr (hport.trans hp))]
    exact State.cutMedia_store_frame passed hm hd hb

end Sys2Proof.Proofs
end

section
namespace Sys2Proof.Machine

/-! ## A part that does not work begins nothing (R6, R154, R159; log entry 5) -/

/-- Outside RUN or under the reset line the part does not work. -/
theorem State.working_eq_false {s : State} (h : s.inRun = false ∨ s.resetLine = true) : s.working = false := by
  rcases h with h | h <;> simp [State.working, h]

theorem State.completeMedia_of_held {s : State} (ws : List WriteWord) (h : s.working = false) : s.completeMedia ws = none := by
  unfold State.completeMedia
  split <;> simp [h]

theorem State.resumeMedia_of_held {s : State} (h : s.working = false) : s.resumeMedia = none := by
  unfold State.resumeMedia
  split <;> simp [h]

theorem State.anchorStep_of_held {s : State} (at? : Nat → Bool) (w : WriteWord) (act : State → Nat → State)
    (h : s.working = false) : s.anchorStep at? w act = none := by
  rw [State.anchorStep, s.wordTxn_of_held .write h]

theorem State.laneWriteStep_of_held {s : State} (header : Bool) (w : WriteWord) (take : State → Fin 4 → Nat → State)
    (h : s.working = false) : s.laneWriteStep header w take = none := by
  rw [State.laneWriteStep, s.wordTxn_of_held .write h]

theorem State.laneReadStep_of_held {s : State} (h : s.working = false) : s.laneReadStep = none := by
  rw [State.laneReadStep, s.wordTxn_of_held .read h]

theorem State.beginFetch_of_held {s : State} (h : s.working = false) : s.beginFetch = none := by
  simp [State.beginFetch, h]

theorem State.takeReport_of_held {s : State} (h : s.working = false) : s.takeReport = none := by
  unfold State.takeReport
  split <;> simp [h]

theorem State.completeReport_of_held {s : State} (h : s.working = false) : s.completeReport = none := by
  unfold State.completeReport
  split <;> simp [h]

theorem State.beginLog_of_held {s : State} (h : s.working = false) : s.beginLog = none := by
  unfold State.beginLog
  split <;> simp [h]

theorem State.completeLog_of_held {s : State} (h : s.working = false) : s.completeLog = none := by
  unfold State.completeLog
  split <;> simp [h]

theorem State.discardHouse_of_held {s : State} (h : s.inRun = false) : s.discardHouse = none := by
  unfold State.discardHouse
  split <;> simp [h]

/-- A command whose fetch does not stand ready leaves the state as it is (log entry 5). -/
theorem execCommand_of_unready {c : Instr} {tag : Word} {code : Byte} {run : State → State × Answer} {s : State}
    (htick : s.tick = TickWork.none) (h : s.fetchReady c = false) : execCommand c tag code run s = .next s :=
  perform_of_untaken _ s htick (if_neg (by simp [h]))

/-- No command of the command ring executes unless its fetch stands ready (R143; log entry 5). -/
theorem exec_record_of_unready {c : Instr} {s : State} (htick : s.tick = TickWork.none) (hc : (recordFields c).isSome = true)
    (h : s.fetchReady c = false) : exec c s = .next s := by
  cases c with
  | siteKey tag key => exact (exec_siteKey tag key s).trans (execCommand_of_unready htick h)
  | tariff tag tax clamp house discreet lift =>
    exact (exec_tariff tag tax clamp house discreet lift s).trans (execCommand_of_unready htick h)
  | openStay tag number ceiling credit discount pin =>
    exact (exec_openStay tag number ceiling credit discount pin s).trans (execCommand_of_unready htick h)
  | closeStay tag => exact (exec_closeStay tag s).trans (execCommand_of_unready htick h)
  | stayQuery tag => exact (exec_stayQuery tag s).trans (execCommand_of_unready htick h)
  | ackCharges tag sequence => exact (exec_ackCharges tag sequence s).trans (execCommand_of_unready htick h)
  | logRegion tag base slots => exact (exec_logRegion tag base slots s).trans (execCommand_of_unready htick h)
  | setCredit tag limit => exact (exec_setCredit tag limit s).trans (execCommand_of_unready htick h)
  | buy tag title => exact (exec_buy tag title s).trans (execCommand_of_unready htick h)
  | bind tag lane role service base slots =>
    exact (exec_bind tag lane role service base slots s).trans (execCommand_of_unready htick h)
  | unbind tag lane => exact (exec_unbind tag lane s).trans (execCommand_of_unready htick h)
  | unlock tag pin => exact (exec_unlock tag pin s).trans (execCommand_of_unready htick h)
  | relock tag => exact (exec_relock tag s).trans (execCommand_of_unready htick h)
  | setCeiling tag ceiling pin => exact (exec_setCeiling tag ceiling pin s).trans (execCommand_of_unready htick h)
  | changePin tag old new => exact (exec_changePin tag old new s).trans (execCommand_of_unready htick h)
  | queryTitle tag title => exact (exec_queryTitle tag title s).trans (execCommand_of_unready htick h)
  | restart tag =>
    exact perform_of_untaken (fun s => if s.fetchReady (.restart tag) then some (s.restart .command).handOver else none) s htick
      (if_neg (by simp [h]))
  | unknown tag code => exact (exec_unknown tag code s).trans (execCommand_of_unready htick h)
  | _ => exact absurd hc Bool.false_ne_true

/-- The rows of the memory path and of the tick leave a part that does not work as it is (R6, R154, R159; log entry 5). -/
theorem exec_event_of_held {s : State} (words : List WriteWord) (w : WriteWord) (htick : s.tick = TickWork.none)
    (h : s.working = false) : ∀ c ∈ [Instr.mediaTransactionComplete words, .mediaResume, .anchorWrite w, .commandRingSlots w,
      .reportRingSlots w, .commandTail w, .reportTail w, .headerWrite w, .payloadWrite w, .laneReadWord, .commandFetchRequest,
      .reportTake, .reportWriteComplete, .logWriteBegin, .logWriteComplete, .secondsTick], exec c s = .next s := by
  have huntaken : ∀ f : State → Option State, f s = none → perform f s = .next s := fun f => perform_of_untaken f s htick
  have hanchor : ∀ (at? : Nat → Bool) (act : State → Nat → State), perform (fun s => s.anchorStep at? w act) s = .next s :=
    fun at? act => huntaken _ (State.anchorStep_of_held at? w act h)
  have hlane : ∀ (header : Bool) (take : State → Fin 4 → Nat → State),
      perform (fun s => s.laneWriteStep header w take) s = .next s :=
    fun header take => huntaken _ (State.laneWriteStep_of_held header w take h)
  simp only [List.forall_mem_cons, List.not_mem_nil, false_implies, implies_true, and_true]
  exact ⟨huntaken (fun s => s.completeMedia words) (State.completeMedia_of_held words h),
    huntaken State.resumeMedia (State.resumeMedia_of_held h), hanchor _ (fun s a => s.latchBase w a),
    hanchor _ (fun s _ => s.writeCommandSlots w), hanchor _ (fun s _ => s.writeReportSlots w),
    hanchor _ (fun s _ => s.writeCommandTail w), hanchor _ (fun s _ => s.writeReportTail w),
    hlane true (fun s n a => s.takeHeader n a w), hlane false (fun s n a => s.takePayload n a w),
    huntaken State.laneReadStep (State.laneReadStep_of_held h), huntaken State.beginFetch (State.beginFetch_of_held h),
    huntaken State.takeReport (State.takeReport_of_held h), huntaken State.completeReport (State.completeReport_of_held h),
    huntaken State.beginLog (State.beginLog_of_held h), huntaken State.completeLog (State.completeLog_of_held h),
    huntaken (fun s => if s.working then some s.secondsTickStep else none) (if_neg (by simp [h]))⟩

/-! ## The reset line (R159) -/

theorem State.assertStep_run {s : State} (ws : List WriteWord) (hl : s.resetLine = false) (hr : s.inRun = true) :
    s.assertStep ws = some (s.lineHolds ws) := by
  simp [State.assertStep, hl, hr]

theorem State.assertStep_off {s : State} (ws : List WriteWord) (hl : s.resetLine = false) (hr : s.inRun = false) :
    s.assertStep ws = some { s with resetLine := true } := by
  simp [State.assertStep, hl, hr]

theorem State.releaseStep_run {s : State} (hl : s.resetLine = true) (hr : s.inRun = true) :
    s.releaseStep = some { s.restart .line with resetLine := false } := by
  simp [State.releaseStep, hl, hr]

theorem State.releaseStep_off {s : State} (hl : s.resetLine = true) (hr : s.inRun = false) :
    s.releaseStep = some { s with resetLine := false } := by
  simp [State.releaseStep, hl, hr]

/-- The reset line holds the part: the cut of the media transaction, the port, and nothing else but the tick count (R6, R159). -/
theorem State.lineHolds_eq (s : State) (ws : List WriteWord) : s.lineHolds ws = { s with
    store := (s.cutMedia ws).store
    media := (s.cutMedia ws).media
    presented := (s.cutMedia ws).presented
    nextPhase := none
    port := s.port.heldByLine
    tickCount := 0
    resetLine := true } := by
  rw [State.lineHolds, s.cutMedia_keeps ws]

theorem exec_resetAssert {s t : State} (ws : List WriteWord) (htick : s.tick = TickWork.none) (h : s.assertStep ws = some t) :
    exec (.resetAssert ws) s = .next t := by
  have harm : exec (.resetAssert ws) s = .next ((s.assertStep ws).getD s) :=
    perform_of_none (fun s => s.assertStep ws) s htick
  rw [harm, h, Option.getD_some]

theorem exec_resetRelease {s t : State} (htick : s.tick = TickWork.none) (h : s.releaseStep = some t) :
    exec .resetRelease s = .next t := by
  have harm : exec .resetRelease s = .next (s.releaseStep.getD s) := perform_of_none _ s htick
  rw [harm, h, Option.getD_some]

end Sys2Proof.Machine

namespace Sys2Proof.Proofs
open Sys2Proof Sys2Proof.Machine

/-- Settles O54: the reset line cuts the media transaction as the entry to RETAIN does, and a part that does not work takes no
event that begins or completes work. -/
theorem theResetLineHoldsAndRestarts : Obligations.TheResetLineHoldsAndRestarts := by
  unfold Obligations.TheResetLineHoldsAndRestarts
  intro s passed htick
  refine ⟨fun hl hr => exec_resetAssert passed htick (State.assertStep_off passed hl hr), fun hl hr => ?held,
    fun hl hr => exec_resetRelease htick (State.releaseStep_off hl hr),
    fun hl hr => exec_resetRelease htick (State.releaseStep_run hl hr),
    fun h => ⟨fun words w => exec_event_of_held words w htick (State.working_eq_false h), fun c hc => ?record⟩,
    fun hr => perform_of_untaken _ s htick (State.discardHouse_of_held hr)⟩
  case record => exact exec_record_of_unready htick hc (s.fetchReady_of_held c (State.working_eq_false h))
  case held =>
    refine ⟨_, exec_resetAssert passed htick (State.assertStep_run passed hl hr), ?_⟩
    rw [s.lineHolds_eq passed]
    exact ⟨rfl, rfl, State.working_eq_false (.inr rfl), fun hp => congrArg Port.heldByLine hp,
      fun hp => congrArg Port.heldByLine hp, fun a addr data o hp => congrArg Port.heldByLine hp, rfl,
      fun m hm => ⟨State.cutMedia_held passed hm, State.cutMedia_complete passed hm⟩, State.cutMedia_store_idle passed,
      fun m hm hd => ⟨fun h => State.cutMedia_store_kept passed fun u hu _ => Option.some.inj (hm.symm.trans hu) ▸ h,
        State.cutMedia_store_write passed hm hd, fun b => State.cutMedia_store_frame passed hm hd⟩,
      fun hm => (congrArg State.media (State.cutMedia_none passed hm)).trans hm, rfl, rfl, rfl, rfl, rfl, rfl, rfl, rfl, rfl⟩

end Sys2Proof.Proofs
end

section
namespace Sys2Proof.Machine

/-! ## The state after reset (log entries 1 and 2) -/

theorem reset_lane (n : Fin 4) : State.reset.lanes.get n = Lane.unbound := Four.get_all Lane.unbound n

theorem reset_slot (i : Fin 4) : State.reset.slots.get i = none := Four.get_all none i

theorem reset_arbiterSafe : ArbiterSafe State.reset :=
  ⟨by decide, fun _ => rfl, .refl _, fun a => by cases a <;> exact nofun, rfl⟩

theorem reset_chargeListSafe : ChargeListSafe State.reset :=
  ⟨by decide, rfl, rfl, rfl, nofun⟩

theorem reset_lockSafe : LockSafe State.reset := by
  unfold LockSafe
  decide

theorem reset_laneSafe : LaneSafe State.reset :=
  ⟨fun n => reset_lane n ▸ Lane.unbound_fits, by decide, by decide⟩

theorem reset_slotSafe : SlotSafe State.reset := by
  refine ⟨fun i j v w hv => ?_, fun i v hv => ?_, fun n b hb => ?_⟩
  · exact absurd hv (by simp [reset_slot])
  · exact absurd hv (by simp [reset_slot])
  · exact absurd hb (by simp [reset_lane, Lane.unbound])

theorem reset_geometrySafe : GeometrySafe State.reset := by
  unfold GeometrySafe
  decide

end Sys2Proof.Machine

namespace Sys2Proof.Proofs
open Sys2Proof Sys2Proof.Machine

/-- Settles O4, invariant by invariant. -/
theorem resetIsSafe : Obligations.ResetIsSafe :=
  ⟨Memory.wf_reset, reset_arbiterSafe, ⟨by decide, nofun⟩, rfl, ⟨by decide, by decide⟩, reset_chargeListSafe,
    fun h => absurd rfl h, reset_lockSafe, ⟨by decide, .nil, nofun⟩, reset_laneSafe, reset_slotSafe, reset_geometrySafe,
    ⟨by decide, rfl⟩⟩

end Sys2Proof.Proofs
end

section
namespace Sys2Proof.Machine

/-! ## A header write (R16, R21 to R25, R29, R30) -/

theorem Lane.align_hunt_good {l : Lane} (h : l.alignment = .hunt) : l.align true =
    if l.good + 1 = 2 then ({ l with alignment := .locked, good := 0, bad := 0 }, .locked)
    else ({ l with good := l.good + 1 }, .stays) := by
  simp [Lane.align, h]

theorem Lane.align_hunt_bad {l : Lane} (h : l.alignment = .hunt) : l.align false = ({ l with good := 0 }, .stays) := by
  simp [Lane.align, h]

theorem Lane.align_locked_good {l : Lane} (h : l.alignment = .locked) : l.align true = ({ l with bad := 0 }, .stays) := by
  simp [Lane.align, h]

theorem Lane.align_locked_bad {l : Lane} (h : l.alignment = .locked) : l.align false =
    if l.bad + 1 = 3 then ({ l with alignment := .hunt, good := 0, bad := 0 }, .lost)
    else ({ l with bad := l.bad + 1 }, .stays) := by
  simp [Lane.align, h]

theorem Lane.alignment_cases (l : Lane) : l.alignment = .hunt ∨ l.alignment = .locked := by
  cases l.alignment <;> simp

/-- The alignment moves as it does without the assembly that a header write tears (R30). -/
theorem Lane.align_torn (l : Lane) (good : Bool) :
    Lane.align { l with assembly := none } good = ({ (l.align good).1 with assembly := none }, (l.align good).2) := by
  rcases l.alignment_cases with ha | ha <;> cases good
  · rw [Lane.align_hunt_bad ha, Lane.align_hunt_bad (l := { l with assembly := none }) ha]
  · rw [Lane.align_hunt_good ha, Lane.align_hunt_good (l := { l with assembly := none }) ha]
    split <;> rfl
  · rw [Lane.align_locked_bad ha, Lane.align_locked_bad (l := { l with assembly := none }) ha]
    split <;> rfl
  · rw [Lane.align_locked_good ha, Lane.align_locked_good (l := { l with assembly := none }) ha]

/-- The alignment's move keeps the continuity reference (R25). -/
theorem Lane.align_reference (l : Lane) (good : Bool) : (l.align good).1.reference = l.reference := by
  rcases l.alignment_cases with ha | ha <;> cases good
  · rw [Lane.align_hunt_bad ha]
  · rw [Lane.align_hunt_good ha]
    split <;> rfl
  · rw [Lane.align_locked_bad ha]
    split <;> rfl
  · rw [Lane.align_locked_good ha]

/-- A good sync of a service, by its written bytes (R16). -/
abbrev GoodSync (service : Byte) (w : WriteWord) : Prop :=
  w.masked 0 = false ∧ w.masked 1 = false ∧ w.masked 2 = false ∧ byteOf w.data 0 = 0xB5 ∧ byteOf w.data 1 = service

/-- The header that a good sync carries in its byte 2 (R16). -/
def Header.ofByte (x : Byte) : Header := ⟨headerKind x, headerScramble x, x.extractLsb' 0 4⟩

theorem readHeader_good {service : Byte} {w : WriteWord} (h : GoodSync service w) :
    readHeader service w = some (Header.ofByte (byteOf w.data 2)) := by
  obtain ⟨h0, h1, h2, hsync, hservice⟩ := h
  simp [readHeader, h0, h1, h2, hsync, hservice, Header.ofByte]

theorem readHeader_bad {service : Byte} {w : WriteWord} (h : ¬ GoodSync service w) : readHeader service w = none := by
  unfold readHeader
  split
  · rfl
  · rename_i hmask
    simp only [Bool.or_eq_true, not_or, Bool.not_eq_true, and_assoc] at hmask
    exact if_neg fun hbytes => h ⟨hmask.1, hmask.2.1, hmask.2.2, hbytes⟩

theorem continuityGap_some (r continuity : BitVec 4) :
    continuityGap (some r) continuity = decide (continuity ≠ r + 1) := by
  simp [continuityGap, bne, Bool.beq_eq_decide_eq]

/-- A good sync in LOCKED forms an entry normally and updates the reference (R23, R25, R29). -/
theorem Lane.header_normal {l : Lane} {b : Binding} {w : WriteWord} (v : ServiceSlot) (slot : Nat)
    (hgood : GoodSync b.service w) (hl : l.alignment = .locked) :
    let h := Header.ofByte (byteOf w.data 2)
    l.header b v slot w =
      ({ (l.align true).1 with
          slice := l.slice.set slot
            (normalEntry v h ((l.entry slot).overrun || continuityGap l.reference h.continuity))
          reference := some h.continuity
          assembly := if h.kind = .control then some (Assembly.start slot) else none }, (l.align true).2) := by
  simp only [Lane.header, readHeader_good hgood, Option.isSome_some, Lane.align_torn]
  rw [hl]

/-- Any other header write forms an entry of kind BAD (R23). -/
theorem Lane.header_abnormal {l : Lane} {b : Binding} {w : WriteWord} (v : ServiceSlot) (slot : Nat)
    (h : ¬ GoodSync b.service w ∨ l.alignment = .hunt) :
    l.header b v slot w =
      ({ (l.align (decide (GoodSync b.service w))).1 with
          slice := l.slice.set slot (badEntry (l.entry slot).overrun)
          assembly := none }, (l.align (decide (GoodSync b.service w))).2) := by
  by_cases hgood : GoodSync b.service w
  · have hl : l.alignment = .hunt := h.resolve_left (not_not.mpr hgood)
    simp only [Lane.header, readHeader_good hgood, Option.isSome_some, Lane.align_torn, decide_eq_true hgood]
    rw [hl]
  · simp only [Lane.header, readHeader_bad hgood, Lane.align_torn, Option.isSome_none, decide_eq_false hgood]

/-- Whatever entry it forms, a header write moves the alignment by the sync and keeps the binding (R21, R22). -/
theorem Lane.header_moves (l : Lane) (b : Binding) (v : ServiceSlot) (slot : Nat) (w : WriteWord) :
    let a := l.align (decide (GoodSync b.service w))
    let m := l.header b v slot w
    m.1.alignment = a.1.alignment ∧ m.1.good = a.1.good ∧ m.1.bad = a.1.bad ∧ m.2 = a.2 := by
  by_cases h : ¬ GoodSync b.service w ∨ l.alignment = .hunt
  · rw [Lane.header_abnormal v slot h]
    exact ⟨rfl, rfl, rfl, rfl⟩
  · obtain ⟨hgood, hl⟩ := not_or.mp h
    rw [Lane.header_normal v slot (not_not.mp hgood) (l.alignment_cases.resolve_left hl), decide_eq_true (not_not.mp hgood)]
    exact ⟨rfl, rfl, rfl, rfl⟩

/-- Two bits of a byte as a number. -/
theorem extract_two_bits (x : Byte) (i : Nat) : (x.extractLsb' i 2).toNat = x.toNat / 2 ^ i % 4 := by
  simp [BitVec.extractLsb'_toNat, Nat.shiftRight_eq_div_pow]

theorem headerKind_eq (x : Byte) :
    headerKind x = if x.toNat / 64 = 0 then .picture else if x.toNat / 64 = 1 then .control else .filler := by
  have hbits : (x.extractLsb' 6 2).toNat = x.toNat / 64 := by
    rw [extract_two_bits]
    omega
  rw [headerKind, hbits]
  split
  · rename_i h
    rw [if_pos h]
  · rename_i h
    rw [if_neg (by omega), if_pos h]
  · rename_i h0 h1
    rw [if_neg h0, if_neg h1]

theorem headerScramble_eq (x : Byte) :
    headerScramble x = if x.toNat / 16 % 4 = 1 then .even else if x.toNat / 16 % 4 = 2 then .odd else .clear := by
  rw [headerScramble, show (x.extractLsb' 4 2).toNat = x.toNat / 16 % 4 from extract_two_bits x 4]
  split
  · rename_i h
    rw [if_pos h]
  · rename_i h
    rw [if_neg (by omega), if_pos h]
  · rename_i h1 h2
    rw [if_neg h1, if_neg h2]

/-! ## A payload word (R26, R29, R31) -/

theorem allArrived_map_some (ws : List Word) : allArrived (ws.map some) = some ws := by
  induction ws with
  | nil => rfl
  | cons w ws ih => simp [allArrived, ih]

theorem allArrived_none {ws : List (Option Word)} (h : none ∈ ws) : allArrived ws = none := by
  induction ws with
  | nil => contradiction
  | cons w ws ih =>
    cases w with
    | none => rfl
    | some w => simp [allArrived, ih (by simpa using h)]

theorem State.takePayload_closed {s : State} {n : Fin 4} (addr : Nat) (w : WriteWord) (h : (s.lanes.get n).assembly = none) :
    s.takePayload n addr w = s := by
  unfold State.takePayload
  split
  · rename_i ha
    exact absurd (h.symm.trans ha) nofun
  · rfl

theorem State.takePayload_unbound {s : State} {n : Fin 4} (addr : Nat) (w : WriteWord) (h : (s.lanes.get n).binding = none) :
    s.takePayload n addr w = s := by
  unfold State.takePayload
  split
  · rename_i hb _
    exact absurd (h.symm.trans hb) nofun
  · rfl

section
variable {s : State} {n : Fin 4} {addr : Nat} {w : WriteWord} {b : Binding} {a : Assembly}
  (hb : (s.lanes.get n).binding = some b) (ha : (s.lanes.get n).assembly = some a)
include hb ha

/-- A word of another slot, or with a masked byte, is not gathered (R29). -/
theorem State.takePayload_foreign (h : a.slot ≠ b.slotAt addr ∨ w.whole = false) : s.takePayload n addr w = s := by
  simp only [State.takePayload, hb, ha]
  refine if_neg fun ⟨hslot, hwhole⟩ => ?_
  rcases h with h | h
  · exact h hslot
  · exact Bool.false_ne_true (h.symm.trans hwhole)

/-- A whole word of the assembly's slot is placed while others are missing (R29). -/
theorem State.takePayload_placed (hslot : a.slot = b.slotAt addr) (hwhole : w.whole = true)
    (hmissing : none ∈ (a.place (payloadIndex addr) w.data).words) :
    s.takePayload n addr w =
      s.setLane n { s.lanes.get n with assembly := some (a.place (payloadIndex addr) w.data) } := by
  simp only [State.takePayload, hb, ha, if_pos (And.intro hslot hwhole), Assembly.complete?, allArrived_none hmissing]

/-- The last whole word hands the notice to the service slot and closes the assembly (R31). -/
theorem State.takePayload_completes (hslot : a.slot = b.slotAt addr) (hwhole : w.whole = true) {ws : List Word}
    (hall : (a.place (payloadIndex addr) w.data).words = ws.map some) :
    s.takePayload n addr w =
      (s.setLane n { s.lanes.get n with assembly := none }).applyNotice b.service (ofWords ws) := by
  simp only [State.takePayload, hb, ha, if_pos (And.intro hslot hwhole), Assembly.complete?, hall, allArrived_map_some]

end

theorem State.applyNotice_lanes (s : State) (service : Byte) (p : List Byte) : (s.applyNotice service p).lanes = s.lanes :=
  congrArg RangeView.lanes (s.applyNotice_quiet service p).ranges

/-- A lane replaced by itself with another assembly keeps its slice, alignment and reference, and so do the others. -/
theorem Lane.assembly_frame (f : Four Lane) (n m : Fin 4) (o : Option Assembly) :
    let g := f.set n { f.get n with assembly := o }
    (g.get m).slice = (f.get m).slice ∧ (g.get m).alignment = (f.get m).alignment ∧
      (g.get m).reference = (f.get m).reference := by
  dsimp only
  rw [Four.get_set]
  split
  · subst_vars
    exact ⟨rfl, rfl, rfl⟩
  · exact ⟨rfl, rfl, rfl⟩

/-- A payload word changes a lane in its assembly alone (R26). -/
theorem State.takePayload_frame (s : State) (n : Fin 4) (addr : Nat) (w : WriteWord) (m : Fin 4) :
    ((s.takePayload n addr w).lanes.get m).slice = (s.lanes.get m).slice ∧
      ((s.takePayload n addr w).lanes.get m).alignment = (s.lanes.get m).alignment ∧
      ((s.takePayload n addr w).lanes.get m).reference = (s.lanes.get m).reference := by
  unfold State.takePayload
  split
  · split
    · dsimp only
      split
      · rw [State.applyNotice_lanes]
        exact Lane.assembly_frame s.lanes n m none
      · exact Lane.assembly_frame s.lanes n m _
    · exact ⟨rfl, rfl, rfl⟩
  · exact ⟨rfl, rfl, rfl⟩

end Sys2Proof.Machine

namespace Sys2Proof.Proofs
open Sys2Proof Sys2Proof.Machine

/-- Settles O15: the table of the alignment's moves, and the two ways a header write forms an entry. -/
theorem aHeaderWriteMovesTheLane : Obligations.AHeaderWriteMovesTheLane := by
  unfold Obligations.AHeaderWriteMovesTheLane
  refine ⟨?table, ?write, fun x => ⟨headerKind_eq x, headerScramble_eq x⟩⟩
  case table =>
    intro l
    refine ⟨fun ha hg => ?_, fun ha hg => ?_, fun ha => Lane.align_hunt_bad ha, fun ha => Lane.align_locked_good ha,
      fun ha hb => ?_, fun ha hb => ?_, fun ha hb => ?_⟩
    · rw [Lane.align_hunt_good ha, hg]; rfl
    · rw [Lane.align_hunt_good ha, hg]; rfl
    · rw [Lane.align_locked_bad ha, hb]; rfl
    · rw [Lane.align_locked_bad ha, hb]; rfl
    · rw [Lane.align_locked_bad ha, hb]; rfl
  case write =>
    intro l b v slot w m good continuity overrun
    refine ⟨fun hgood hl => ?_, fun hother => ?_, l.header_binding b v slot w, l.header_moves b v slot w⟩
    · have hm : m = _ := congrArg Prod.fst (Lane.header_normal v slot hgood hl)
      rw [hm]
      refine ⟨?_, rfl, fun hk => if_pos hk, fun hk => if_neg hk⟩
      cases l.reference with
      | none => rfl
      | some r =>
        rw [continuityGap_some]
        rfl
    · have hm : m = _ := congrArg Prod.fst (Lane.header_abnormal v slot hother)
      rw [hm]
      exact ⟨rfl, l.align_reference _, rfl⟩

/-- Settles O16, by what an open assembly makes of the word. -/
theorem aPayloadWordFeedsTheAssembly : Obligations.APayloadWordFeedsTheAssembly := by
  unfold Obligations.APayloadWordFeedsTheAssembly
  intro s n addr w
  refine ⟨State.takePayload_closed addr w, State.takePayload_unbound addr w, fun b a hb ha => ?_, s.takePayload_frame n addr w⟩
  exact ⟨State.takePayload_placed hb ha, fun hslot hwhole ws => State.takePayload_completes hb ha hslot hwhole,
    State.takePayload_foreign hb ha⟩

end Sys2Proof.Proofs
end

section
namespace Sys2Proof.Machine

/-! ## Notices (R34, R35, R36) -/

/-- The tests of R35 that a notice of a known kind must pass. -/
theorem noticeValid_iff (p : List Byte) : noticeValid p = true ↔
    (noticeByte p 1).toNat ≤ 120 ∧ bodySize (noticeByte p 0) = some (noticeByte p 1).toNat ∧
      noticeHalf p (2 + (noticeByte p 1).toNat) = noticeCrc (p.take (2 + (noticeByte p 1).toNat)) := by
  simp [noticeValid, and_assoc]

/-- The body sizes of the two kinds that are known (section 12.2). -/
theorem bodySize_eq_some {kind : Byte} {n : Nat} : bodySize kind = some n ↔ (kind = 1 ∧ n = 8) ∨ (kind = 2 ∧ n = 18) := by
  unfold bodySize
  by_cases h1 : kind = 1
  · simp [h1, eq_comm]
  · by_cases h2 : kind = 2
    · simp [h2, eq_comm]
    · rw [if_neg h1, if_neg h2]
      exact ⟨nofun, fun h => absurd h (by simp only [h1, h2, false_and, or_self, not_false_eq_true])⟩

theorem parseNotice_invalid {p : List Byte} (h : ¬ noticeValid p = true) : parseNotice p = none :=
  if_pos ((Bool.not_eq_true _).mp h)

theorem parseNotice_title {p : List Byte} (h : noticeValid p = true) (hk : noticeByte p 0 = 1) :
    parseNotice p = some (.title (titleTerms p)) :=
  (if_neg (by simp [h])).trans (if_pos hk)

theorem parseNotice_word {p : List Byte} (h : noticeValid p = true) (hk : noticeByte p 0 = 2) :
    parseNotice p = some (.word (noticeHalf p 2) (noticeWord p 4) (noticeWord p 8) (noticeWord p 12) (noticeWord p 16)) :=
  (if_neg (by simp [h])).trans (if_neg (by simp [hk]))

/-- A discarded notice changes nothing (R35). -/
theorem State.applyNotice_discarded (s : State) (service : Byte) {p : List Byte} (h : parseNotice p = none) :
    s.applyNotice service p = s := by
  simp [State.applyNotice, h]

theorem State.applyNotice_title {s : State} {service : Byte} {i : Fin 4} {p : List Byte} {t : TitleTerms}
    (hi : s.slotIndex service = some i) (hp : parseNotice p = some (.title t)) :
    s.applyNotice service p = s.titleNotice i t := by
  simp [State.applyNotice, hi, hp]

theorem State.applyNotice_word {s : State} {service : Byte} {i : Fin 4} {v : ServiceSlot} {p : List Byte} {w : BitVec 16}
    {eh el oh ol : Word} (hi : s.slotIndex service = some i) (hv : s.slots.get i = some v)
    (hp : parseNotice p = some (.word w eh el oh ol)) :
    s.applyNotice service p = s.setSlot i (some (v.word s.siteKey w eh el oh ol)) := by
  simp [State.applyNotice, hi, hv, hp]

/-- One more byte of the CRC takes its bits from the most significant on (R36). -/
theorem noticeCrc_append (bytes : List Byte) (b : Byte) :
    noticeCrc (bytes ++ [b]) = [7, 6, 5, 4, 3, 2, 1, 0].foldl (fun r i => crcStep r (b.getLsbD i)) (noticeCrc bytes) := by
  simp only [noticeCrc, byteBits, List.flatMap_append, List.flatMap_singleton, List.foldl_append, List.foldl_map]

/-- The combined bit is the register's top bit, bit 15, exclusive-or the input bit (R36). -/
theorem crcStep_eq (r : BitVec 16) (bit : Bool) :
    crcStep r bit = if r.getLsbD 15 != bit then (r <<< 1) ^^^ 0x1021#16 else r <<< 1 := by
  rw [crcStep, BitVec.msb_eq_getLsbD_last]

/-! ## The judgement of a read burst (R28, R100 to R104) -/

/-- The cell is an unpaid pay cell outside an OCCUPIED stay, or with its title absent or shut (R103). -/
theorem State.unpaid_iff (s : State) (e : Entry) : s.unpaid e = true ↔
    e.pay = true ∧ (s.stay.state ≠ .occupied ∨ s.title? e.title = none ∨
      ∃ t, s.title? e.title = some t ∧ t.shut = true) := by
  cases ht : s.title? e.title <;> simp [State.unpaid, ht]

/-- A title that is not shut is PURCHASED, OFFERED or PREVIEW (R64). -/
theorem TitleEntry.open_of_not_shut {t : TitleEntry} (h : t.shut = false) :
    t.bought = true ∨ t.state = .offered ∨ t.state = .preview := by
  cases hs : t.state <;> simp_all [TitleEntry.shut, TitleEntry.bought]

section
variable {s : State} {service : Byte} {e : Entry}

theorem State.judgePicture_rating (h : s.effectiveCeiling < e.rating) :
    s.judgePicture service e = (.heldRating, .zeros) := if_pos h

variable (hr : e.rating ≤ s.effectiveCeiling)
include hr

theorem State.judgePicture_unpaid (hu : s.unpaid e = true) : s.judgePicture service e = (.heldUnpaid, .zeros) :=
  (if_neg (Nat.not_lt.mpr hr)).trans (if_pos hu)

variable (hu : ¬ s.unpaid e = true)
include hu

theorem State.judgePicture_clear (hc : e.scramble = .clear) : s.judgePicture service e = (.shownClear, .asStored) :=
  (if_neg (Nat.not_lt.mpr hr)).trans ((if_neg hu).trans (if_pos hc))

variable (hc : e.scramble ≠ .clear)
include hc

theorem State.judgePicture_nokey (hp : choosePair e (s.slotOf service) = .nokey) :
    s.judgePicture service e = (.heldNokey, .zeros) := by
  simp [State.judgePicture, Nat.not_lt.mpr hr, hu, hc, hp]

theorem State.judgePicture_stale (hp : choosePair e (s.slotOf service) = .stale) :
    s.judgePicture service e = (.heldStale, .zeros) := by
  simp [State.judgePicture, Nat.not_lt.mpr hr, hu, hc, hp]

theorem State.judgePicture_opened {p : WordPair} (hp : choosePair e (s.slotOf service) = .pair p) :
    s.judgePicture service e = (.shownOpened, .descramble (p.key e.scramble) service e.continuity) := by
  simp [State.judgePicture, Nat.not_lt.mpr hr, hu, hc, hp]

end

/-- A picture presented as anything but zeros passed the rating and the payment tests (R104). -/
theorem State.judgePicture_shown {s : State} {service : Byte} {e : Entry} (h : (s.judgePicture service e).2 ≠ .zeros) :
    e.rating ≤ s.effectiveCeiling ∧ ¬ s.unpaid e = true := by
  by_cases hr : s.effectiveCeiling < e.rating
  · exact absurd (by rw [State.judgePicture_rating hr]) h
  · by_cases hu : s.unpaid e = true
    · exact absurd (by rw [State.judgePicture_unpaid (Nat.not_lt.mp hr) hu]) h
    · exact ⟨Nat.not_lt.mp hr, hu⟩

theorem Entry.written_or_read {e : Entry} (h : e.state ≠ .empty) : e.state = .written ∨ e.state = .read := by
  cases hs : e.state with
  | empty => exact absurd hs h
  | written => exact .inl rfl
  | read => exact .inr rfl

section
variable (s : State) (b : Binding) {e : Entry} (payload : Bool)

theorem State.judge_empty (h : e.state = .empty) : s.judge b e payload = Judgement.underrun := by
  simp [State.judge, h]

variable (hs : e.state ≠ .empty)
include hs

theorem State.judge_bad (hk : e.kind = .bad) : (s.judge b e payload).reason = .heldNotcell := by
  rcases Entry.written_or_read hs with h | h <;> simp [State.judge, h, hk]

theorem State.judge_noPicture (hk : e.kind = .control ∨ e.kind = .filler) : (s.judge b e payload).reason = .shownClear := by
  rcases Entry.written_or_read hs with h | h <;> rcases hk with hk | hk <;> simp [State.judge, h, hk]

/-- A cell of no picture shows no payload and hands no seen mark (R104, R108). -/
theorem State.judge_zeros (hk : e.kind ≠ .picture) :
    (s.judge b e payload).treatment = .zeros ∧ (s.judge b e payload).mark = none := by
  rcases Entry.written_or_read hs with h | h <;> cases hkind : e.kind with
  | picture => exact absurd hkind hk
  | control => simp [State.judge, h, hkind]
  | filler => simp [State.judge, h, hkind]
  | bad => simp [State.judge, h, hkind]

/-- A picture cell's reason and treatment are those of its tests (R102). -/
theorem State.judge_picture (hk : e.kind = .picture) :
    (s.judge b e payload).reason = (s.judgePicture b.service e).1 ∧
      (s.judge b e payload).treatment = (s.judgePicture b.service e).2 := by
  rcases Entry.written_or_read hs with h | h <;> simp [State.judge, h, hk]

end

/-! ## BIND (R17, R18, R20, R46, R47) -/

theorem roleOf_eq {role : Byte} (h : role.toNat ≤ 1) : roleOf role = some (if role = 0 then .main else .mosaic) := by
  unfold roleOf
  by_cases h0 : role = 0
  · simp [h0]
  · have h1 : role = 1 := by bv_omega
    simp [h1]

theorem roleOf_none {role : Byte} (h : 1 < role.toNat) : roleOf role = none :=
  (if_neg (by bv_omega)).trans (if_neg (by bv_omega))

/-- The format that BIND's first test asks for (R17). -/
abbrev BindFits (lane role : Byte) (base slots : Nat) : Prop :=
  lane.toNat ≤ 3 ∧ base % 128 = 0 ∧ 16 ≤ slots ∧ slots ≤ 1024 ∧ base + slots * 128 ≤ Config.storeSize ∧ role.toNat ≤ 1

theorem bindFormat_fits {lane role : Byte} {base slots : Nat} {n : Fin 4} (h : BindFits lane role base slots)
    (hn : n.val = lane.toNat) : bindFormat lane role base slots = some (n, if role = 0 then .main else .mosaic) := by
  obtain ⟨-, hbase, hlow, hhigh, hin, hrole⟩ := h
  rw [bindFormat, if_pos ⟨hbase, hlow, hhigh, hin⟩, laneOf_of_lt hn, roleOf_eq hrole]

theorem bindFormat_none {lane role : Byte} {base slots : Nat} (h : ¬ BindFits lane role base slots) :
    bindFormat lane role base slots = none := by
  unfold bindFormat
  split
  · rename_i hrange
    obtain ⟨hbase, hlow, hhigh, hin⟩ := hrange
    by_cases hlane : lane.toNat ≤ 3
    · have hrole : 1 < role.toNat := Nat.lt_of_not_le fun hr => h ⟨hlane, hbase, hlow, hhigh, hin, hr⟩
      simp [roleOf_none hrole]
    · simp [laneOf_none (Nat.lt_of_not_le hlane)]
  · rfl

theorem State.mainTaken_iff (s : State) : s.mainTaken = true ↔ ∃ m, s.laneIsMain m = true := by
  simp [State.mainTaken, mem_four]

theorem State.runBind_badFormat (s : State) {lane role : Byte} {base slots : Nat} (service : Byte)
    (h : ¬ BindFits lane role base slots) : s.runBind lane role service base slots = (s, .badFormat, .absent) := by
  rw [State.runBind, bindFormat_none h]

section
variable {s : State} {n : Fin 4} {b : Binding}

/-- BIND answers with the first of its tests that fails, or binds the lane (R17, R18). -/
theorem State.runBind_declines {lane role service : Byte} {base slots : Nat} {r : Role} {code : ResultCode}
    (hf : bindFormat lane role base slots = some (n, r)) (hc : s.bindCheck n ⟨base, slots, service, r⟩ = some code) :
    s.runBind lane role service base slots = (s, code, .absent) := by
  simp only [State.runBind, hf, hc]

theorem State.runBind_binds {lane role service : Byte} {base slots : Nat} {r : Role}
    (hf : bindFormat lane role base slots = some (n, r)) (hc : s.bindCheck n ⟨base, slots, service, r⟩ = none) :
    s.runBind lane role service base slots = (s.bindLane n ⟨base, slots, service, r⟩, .done, .absent) := by
  simp only [State.runBind, hf, hc]

theorem State.bindCheck_busy (h : (s.lanes.get n).binding.isSome = true) : s.bindCheck n b = some .laneBusy := if_pos h

variable (hfree : (s.lanes.get n).binding = none)
include hfree

theorem State.bindCheck_overlap (h : ¬ ∀ x ∈ s.extents, overlaps b.extent x = false) : s.bindCheck n b = some .overlap :=
  (if_neg (by simp [hfree])).trans (if_pos ((Bool.not_eq_false _).mp fun hclear => h (overlapsAny_false.mp hclear)))

variable (hclear : ∀ x ∈ s.extents, overlaps b.extent x = false)
include hclear

theorem State.bindCheck_clear : s.bindCheck n b =
    if b.role = .main ∧ s.mainTaken = true then some .roleTaken
    else if s.freeEntries < b.slots then some .noDirectory else none :=
  have hapart : overlapsAny b.extent s.bindObstacles = false := overlapsAny_false.mpr hclear
  (if_neg (by simp [hfree])).trans (if_neg (by simp [hapart]))

end

/-- A service with a slot in use takes one more reference to it (R47). -/
theorem State.joinSlot_used {s : State} {service : Byte} {i : Fin 4} {v : ServiceSlot} (hi : s.slotIndex service = some i)
    (hv : s.slots.get i = some v) : s.joinSlot service = s.setSlot i (some { v with refs := v.refs + 1 }) := by
  simp [State.joinSlot, hi, hv]

/-- A service without one takes the slot that is free (R46). -/
theorem State.joinSlot_new {s : State} {service : Byte} {i : Fin 4} (hi : s.slotIndex service = none)
    (hfree : s.freeSlot = some i) : s.joinSlot service = s.setSlot i (some (ServiceSlot.fresh service)) := by
  simp [State.joinSlot, hi, hfree]

/-- The first of the four numbers with a property is the lowest one. -/
theorem four_find?_eq_some {p : Fin 4 → Bool} {i : Fin 4} :
    four.find? p = some i ↔ p i = true ∧ ∀ j, j < i → p j = false := by
  have hget : ∀ (k : Nat) (hk : k < four.length), four[k] = ⟨k, hk⟩ := fun k hk =>
    (by decide : ∀ m : Fin 4, four[m.val]'m.isLt = m) ⟨k, hk⟩
  simp only [List.find?_eq_some_iff_getElem, hget, Bool.not_eq_true']
  constructor
  · rintro ⟨hp, k, hk, rfl, hbefore⟩
    exact ⟨hp, fun j hj => hbefore j.val hj⟩
  · rintro ⟨hp, hbefore⟩
    exact ⟨hp, i.val, i.isLt, rfl, fun j hj => hbefore ⟨j, hj.trans i.isLt⟩ hj⟩

/-- The free slot taken is the lowest-numbered one not in use (log entry 21). -/
theorem State.freeSlot_eq_some {s : State} {i : Fin 4} :
    s.freeSlot = some i ↔ s.slots.get i = none ∧ ∀ j, j < i → s.slots.get j ≠ none := by
  rw [State.freeSlot, four_find?_eq_some]
  simp [Option.isSome_iff_ne_none]

end Sys2Proof.Machine

namespace Sys2Proof.Proofs
open Sys2Proof Sys2Proof.Machine

/-- Settles O17: the tests of a notice, the rotation of the word pairs, and the CRC byte by byte. -/
theorem noticesAreTestedAndWordsRotate : Obligations.NoticesAreTestedAndWordsRotate := by
  unfold Obligations.NoticesAreTestedAndWordsRotate
  refine ⟨?tests, ?rotation, rfl, ?crc⟩
  case tests =>
    intro s service p kind len
    refine ⟨fun hfail => ?_, fun i v hi hv hlen hcrc => ⟨fun hk hl => ?_, fun hk hl => ?_⟩⟩
    · refine s.applyNotice_discarded service (parseNotice_invalid fun hvalid => ?_)
      obtain ⟨hlen, hbody, hcrc⟩ := (noticeValid_iff p).mp hvalid
      rcases hfail with ⟨h1, h2⟩ | hlong | ⟨hk, hl⟩ | ⟨hk, hl⟩ | hbad
      · rcases bodySize_eq_some.mp hbody with ⟨hk, -⟩ | ⟨hk, -⟩
        · exact h1 hk
        · exact h2 hk
      · exact absurd hlen (Nat.not_le.mpr hlong)
      · rcases bodySize_eq_some.mp hbody with ⟨-, h8⟩ | ⟨h2, -⟩
        · exact hl h8
        · exact absurd (hk.symm.trans h2) (by decide)
      · rcases bodySize_eq_some.mp hbody with ⟨h1, -⟩ | ⟨-, h18⟩
        · exact absurd (hk.symm.trans h1) (by decide)
        · exact hl h18
      · exact hbad hcrc
    · have hvalid := (noticeValid_iff p).mpr ⟨hlen, bodySize_eq_some.mpr (.inl ⟨hk, hl⟩), hcrc⟩
      exact State.applyNotice_title hi (parseNotice_title hvalid hk)
    · have hvalid := (noticeValid_iff p).mpr ⟨hlen, bodySize_eq_some.mpr (.inr ⟨hk, hl⟩), hcrc⟩
      exact State.applyNotice_word hi hv (parseNotice_word hvalid hk)
  case rotation =>
    exact fun v key w eh el oh ol => ⟨fun hrepeat => if_pos hrepeat, fun hnew => if_neg hnew⟩
  case crc =>
    intro bytes b
    rw [noticeCrc_append]
    simp only [crcStep_eq]

/-- Settles O24: the verdict kind by kind, and for a picture test by test. -/
theorem verdictsFollowTheOrderOfTests : Obligations.VerdictsFollowTheOrderOfTests := by
  unfold Obligations.VerdictsFollowTheOrderOfTests
  refine ⟨?verdict, ?shown⟩
  case verdict =>
    intro s b e payload j unpaid choice
    have hunpaid : unpaid ↔ s.unpaid e = true := (s.unpaid_iff e).symm
    simp only [hunpaid]
    refine ⟨fun hs => ?_, s.judge_bad b payload, s.judge_noPicture b payload, s.judge_zeros b payload, fun hs hk => ?_⟩
    · have hj : j = _ := s.judge_empty b payload hs
      rw [hj]
      exact ⟨rfl, rfl, rfl, rfl, rfl⟩
    · have hpicture : ∀ {r t}, s.judgePicture b.service e = (r, t) → j.reason = r ∧ j.treatment = t := by
        intro r t h
        obtain ⟨hreason, htreatment⟩ := s.judge_picture b payload hs hk
        exact ⟨hreason.trans (congrArg Prod.fst h), htreatment.trans (congrArg Prod.snd h)⟩
      refine ⟨fun hr => hpicture (State.judgePicture_rating hr), fun hr hu => hpicture (State.judgePicture_unpaid hr hu),
        fun hr hu hc hp => hpicture (State.judgePicture_nokey hr hu hc hp),
        fun hr hu hc hp => hpicture (State.judgePicture_stale hr hu hc hp),
        fun hr hu hc => hpicture (State.judgePicture_clear hr hu hc), fun p hr hu hc hp => hpicture ?_,
        fun p hr hu hc hp => hpicture ?_⟩
      · rw [State.judgePicture_opened hr hu (by simp [hc]) hp, hc]
        rfl
      · rw [State.judgePicture_opened hr hu (by simp [hc]) hp, hc]
        rfl
  case shown =>
    intro s b e payload hshown
    have hs : e.state ≠ .empty := fun h => hshown (by rw [s.judge_empty b payload h]; rfl)
    have hk : e.kind = .picture := not_not.mp fun h => hshown (s.judge_zeros b payload hs h).1
    rw [(s.judge_picture b payload hs hk).2] at hshown
    obtain ⟨hr, hu⟩ := State.judgePicture_shown hshown
    refine ⟨hs, hk, hr, fun hpay => ?_⟩
    rw [State.unpaid_iff] at hu
    simp only [hpay, true_and, not_or, not_not, not_exists, not_and, Bool.not_eq_true] at hu
    obtain ⟨hstay, htitle, hshut⟩ := hu
    obtain ⟨t, ht⟩ := Option.ne_none_iff_exists'.mp htitle
    exact ⟨hstay, t, ht, TitleEntry.open_of_not_shut (hshut t ht)⟩

/-- Settles O37, test by test of `State.runBind`. -/
theorem bindFollowsItsFiveTests : Obligations.BindFollowsItsFiveTests := by
  unfold Obligations.BindFollowsItsFiveTests
  refine ⟨?tests, ⟨rfl, fun _ => rfl⟩, ?free⟩
  case free =>
    intro s slots
    refine ⟨?_, fun i => State.freeSlot_eq_some⟩
    simp [State.freeEntries_eq, Lane.held_eq, four, slots, Nat.add_assoc]
  case tests =>
    intro tag base lane role service slots s c htakes fits
    have hanswer : ∀ {u a}, s.runBind lane role service base.toNat slots.toNat = (u, a) → Answers c tag 0x0A s u a :=
      answers_of_takes (exec_bind tag lane role service base slots s) htakes
    refine ⟨fun h => hanswer (s.runBind_badFormat service h), ?_⟩
    intro hfits n hn r b clear taken
    have hf := bindFormat_fits hfits hn
    have htaken : taken ↔ r = .main ∧ s.mainTaken = true := and_congr_right fun _ => s.mainTaken_iff.symm
    have hdeclines : ∀ {code}, s.bindCheck n b = some code → Declines c tag 0x0A s (code, .absent) :=
      fun hc => hanswer (State.runBind_declines hf hc)
    refine ⟨fun hbusy => hdeclines (State.bindCheck_busy hbusy),
      fun hfree hover => hdeclines (State.bindCheck_overlap hfree hover), fun hfree hclear hrole => hdeclines ?_,
      fun hfree hclear hrole hfull => hdeclines ?_, fun hfree hclear hrole hroom => ?_⟩
    · rw [State.bindCheck_clear (b := b) hfree hclear, if_pos (htaken.mp hrole)]
    · rw [State.bindCheck_clear (b := b) hfree hclear, if_neg fun h => hrole (htaken.mpr h), if_pos hfull]
    · have hcheck : s.bindCheck n b = none := by
        rw [State.bindCheck_clear (b := b) hfree hclear, if_neg fun h => hrole (htaken.mpr h), if_neg (Nat.not_lt.mpr hroom)]
      have hbinds := State.runBind_binds hf hcheck
      intro bound
      refine ⟨fun i v hi hv => ?_, fun i hi hfreeSlot => ?_⟩
      · exact hanswer (hbinds.trans (congrArg (·, _) (State.joinSlot_used (s := bound) hi hv)))
      · exact hanswer (hbinds.trans (congrArg (·, _) (State.joinSlot_new (s := bound) hi hfreeSlot)))

end Sys2Proof.Proofs
end

section
namespace Sys2Proof.Machine

/-! ## TITLE notices and the title table (R37 to R40, R66 to R68) -/

/-- Rental hours are read as 24, as given or as 72 (R37). -/
theorem readHours_eq (b : Byte) : readHours b = if b.toNat = 0 then 24 else if b.toNat ≤ 72 then b.toNat else 72 := by
  have hzero : b = 0 ↔ b.toNat = 0 := by bv_omega
  simp only [readHours, hzero, Nat.min_def]

/-! ### Service slots under title changes -/

@[simp] theorem Four.set_set {α : Type} (f : Four α) (i : Fin 4) (a b : α) : (f.set i a).set i b = f.set i b := by
  match i with
  | 0 => rfl
  | 1 => rfl
  | 2 => rfl
  | 3 => rfl

/-- Of two replacements of one service slot the later one stands. -/
@[simp] theorem State.setSlot_setSlot (s : State) (i : Fin 4) (a b : Option ServiceSlot) :
    (s.setSlot i a).setSlot i b = s.setSlot i b := by
  simp [State.setSlot]

/-- A report may be raised before or after a service slot is replaced. -/
theorem State.setSlot_raiseEvent (s : State) (e : Event) (i : Fin 4) (v : Option ServiceSlot) :
    (s.raiseEvent e).setSlot i v = (s.setSlot i v).raiseEvent e :=
  apply_ite (State.setSlot · i v) _ _ _

/-- A slot in use takes the rating and the pay flag (R38). -/
theorem State.setSlotTerms_used {s : State} {i : Fin 4} {v : ServiceSlot} (hv : s.slots.get i = some v) (rating : Nat)
    (pay : Bool) : s.setSlotTerms i rating pay = s.setSlot i (some { v with rating := rating, pay := pay }) := by
  simp [State.setSlotTerms, hv]

/-! ### The outcomes of a registration (R66, R67, R68) -/

section
variable {s : State} {t : TitleTerms}

/-- A number already in the refused list is not reported again (R68). -/
theorem State.refuse_again {n : BitVec 16} (h : s.refused.contains n = true) : s.refuse n = s := if_pos h

theorem State.refuse_first {n : BitVec 16} (h : s.refused.contains n = false) :
    s.refuse n =
      { s with refused := (if s.refused.length < 16 then s.refused else s.refused.drop 1) ++ [n] }.raiseEvent
        (.titleTableFull n) :=
  if_neg ((Bool.not_eq_true _).mpr h)

theorem State.register_room (h : s.titles.length < 32) : s.register t = s.enter t := if_pos h

variable (hfull : 32 ≤ s.titles.length)
include hfull

theorem State.register_evicts {e : TitleEntry} (hvictim : s.victim = some e) :
    s.register t = (s.removeTitle e.number).enter t := by
  rw [State.register, if_neg (Nat.not_lt.mpr hfull), hvictim]

theorem State.register_refused (hvictim : s.victim = none) : s.register t = s.refuse t.number := by
  rw [State.register, if_neg (Nat.not_lt.mpr hfull), hvictim]

end

/-! The entries and the refused list change alike before and after a service slot is replaced. -/

theorem State.setSlot_enter (s : State) (t : TitleTerms) (i : Fin 4) (v : Option ServiceSlot) :
    (s.enter t).setSlot i v = (s.setSlot i v).enter t := rfl

theorem State.setSlot_removeTitle (s : State) (n : BitVec 16) (i : Fin 4) (v : Option ServiceSlot) :
    (s.removeTitle n).setSlot i v = (s.setSlot i v).removeTitle n := rfl

theorem State.setSlot_refuse (s : State) (n : BitVec 16) (i : Fin 4) (v : Option ServiceSlot) :
    (s.refuse n).setSlot i v = (s.setSlot i v).refuse n := by
  cases h : s.refused.contains n with
  | true => rw [State.refuse_again h, State.refuse_again (s := s.setSlot i v) h]
  | false =>
    rw [State.refuse_first h, State.refuse_first (s := s.setSlot i v) h]
    exact State.setSlot_raiseEvent _ _ i v

@[simp] theorem State.refuse_slots (s : State) (n : BitVec 16) : (s.refuse n).slots = s.slots := by
  cases h : s.refused.contains n with
  | true => rw [State.refuse_again h]
  | false => rw [State.refuse_first h, State.raiseEvent_slots]

/-- A registration changes no service slot. -/
@[simp] theorem State.register_slots (s : State) (t : TitleTerms) : (s.register t).slots = s.slots := by
  by_cases hroom : s.titles.length < 32
  · rw [State.register_room hroom]; rfl
  · have hfull := Nat.not_lt.mp hroom
    cases hvictim : s.victim with
    | none => rw [State.register_refused hfull hvictim, State.refuse_slots]
    | some e => rw [State.register_evicts hfull hvictim]; rfl

/-! ### The title taking the most recent position (R39) -/

/-- The entry found for a number stands in the table and has that number. -/
theorem State.title?_eq_some {s : State} {n : BitVec 16} {e : TitleEntry} (h : s.title? n = some e) :
    e ∈ s.titles ∧ e.number = n :=
  ⟨List.mem_of_find?_eq_some h, by simpa using List.find?_some h⟩

/-- With no two entries of one number (R65), the entry found for a number is the only one that has it. -/
theorem State.titles_filter_number {s : State} {n : BitVec 16} {e : TitleEntry}
    (hnodup : (s.titles.map TitleEntry.number).Nodup) (h : s.title? n = some e) :
    s.titles.filter (fun x => x.number == n) = [e] := by
  obtain ⟨hmem, rfl⟩ := State.title?_eq_some h
  have honly : ∀ x ∈ s.titles, (x.number == e.number) = (x == e) := fun x hx => by
    rw [Bool.eq_iff_iff, beq_iff_eq, beq_iff_eq]
    exact ⟨List.inj_on_of_nodup_map hnodup hx hmem, congrArg _⟩
  rw [List.filter_congr honly, List.filter_beq, List.count_eq_one_of_mem hnodup.of_map hmem]
  rfl

theorem State.refreshTitle_eq {s : State} {n : BitVec 16} {e : TitleEntry} (hsafe : TitleSafe s) (h : s.title? n = some e) :
    s.refreshTitle n = { s with titles := s.titles.filter (fun x => x.number != n) ++ [e] } := by
  obtain ⟨-, hnodup, -⟩ := hsafe
  rw [State.refreshTitle, State.titles_filter_number hnodup h]

/-! ### What a TITLE notice does to its slot, by the title it names (R38, R39, R40) -/

section
variable {s : State} {i : Fin 4} {t : TitleTerms} {v : ServiceSlot} (hv : s.slots.get i = some v)
include hv

theorem State.titleNotice_free (h0 : t.number = 0) :
    s.titleNotice i t = s.setSlot i (some { v with title := t.number, rating := t.rating, pay := false }) := by
  simp only [State.titleNotice, hv, Option.map_some, if_pos h0]
  rw [State.setSlotTerms_used (Four.get_set_same _ _ _), State.setSlot_setSlot]

variable (h0 : t.number ≠ 0)
include h0

theorem State.titleNotice_listed {e : TitleEntry} (h : s.title? t.number = some e) :
    s.titleNotice i t =
      (s.setSlot i (some { v with title := t.number, rating := e.rating, pay := decide (0 < e.price) })).refreshTitle
        t.number := by
  have hnamed : ∀ x, (s.setSlot i x).title? t.number = some e := fun _ => h
  simp only [State.titleNotice, hv, Option.map_some, if_neg h0, hnamed]
  rw [State.setSlotTerms_used (Four.get_set_same _ _ _)]
  exact congrArg (State.refreshTitle · t.number) (s.setSlot_setSlot i _ _)

theorem State.titleNotice_new (h : s.title? t.number = none) :
    s.titleNotice i t =
      ((s.setSlot i (some { v with title := t.number })).register t).setSlot i
        (some { v with title := t.number, rating := t.rating, pay := decide (0 < t.price) }) := by
  have hnamed : ∀ x, (s.setSlot i x).title? t.number = none := fun _ => h
  simp only [State.titleNotice, hv, Option.map_some, if_neg h0, hnamed]
  have hslot : ((s.setSlot i (some { v with title := t.number })).register t).slots.get i =
      some { v with title := t.number } := by simp
  rw [State.setSlotTerms_used hslot]

end

end Sys2Proof.Machine

namespace Sys2Proof.Proofs
open Sys2Proof Sys2Proof.Machine

/-- Settles O18, field by field of `titleTerms`. -/
theorem aTitleNoticeIsReadClamped : Obligations.ATitleNoticeIsReadClamped := by
  unfold Obligations.ATitleNoticeIsReadClamped
  intro p t
  have hhours : t.hours = _ := readHours_eq (noticeByte p 9)
  refine ⟨rfl, rfl, fun h => min_eq_left h, fun h => min_eq_right h.le, fun h => min_eq_left h, fun h => min_eq_right h.le,
    fun h => ?_, fun h1 h2 => ?_, fun h => ?_⟩
  · rw [hhours, if_pos h]
  · rw [hhours, if_neg (Nat.one_le_iff_ne_zero.mp h1), if_pos h2]
  · rw [hhours, if_neg (by omega), if_neg (Nat.not_le.mpr h)]

/-- Settles O19, by the title that the notice names and, for a new one, by the outcome of its registration. -/
theorem aTitleNoticeSetsTheTitle : Obligations.ATitleNoticeSetsTheTitle := by
  unfold Obligations.ATitleNoticeSetsTheTitle
  intro s i t v hv named slot
  refine ⟨State.titleNotice_free hv, fun e h0 he hsafe => ?_, fun h0 hnew => ?_⟩
  · rw [State.titleNotice_listed hv h0 he]
    exact State.refreshTitle_eq hsafe he
  · have hnotice : s.titleNotice i t = (named.register t).setSlot i (slot t.rating (decide (0 < t.price))) :=
      State.titleNotice_new hv h0 hnew
    refine ⟨fun hroom => ?_, fun e hfull hvictim => ?_, fun hfull hvictim hagain => ?_, fun hfull hvictim hfirst => ?_⟩
    · rw [hnotice, State.register_room (s := named) hroom, State.setSlot_enter, State.setSlot_setSlot]
      rfl
    · rw [hnotice, State.register_evicts (s := named) hfull hvictim, State.setSlot_enter, State.setSlot_removeTitle,
        State.setSlot_setSlot]
      rfl
    · rw [hnotice, State.register_refused (s := named) hfull hvictim, State.setSlot_refuse, State.setSlot_setSlot]
      exact State.refuse_again hagain
    · rw [hnotice, State.register_refused (s := named) hfull hvictim, State.setSlot_refuse, State.setSlot_setSlot]
      exact State.refuse_first hfirst

end Sys2Proof.Proofs
end

section
namespace Sys2Proof.Machine

/-! ## The keystream and its positions (R52 to R54) -/

@[simp] theorem be64_high (high low : Word) : (be64 high low).extractLsb' 32 32 = high := by
  refine BitVec.eq_of_toNat_eq ?_
  rw [BitVec.extractLsb'_toNat, be64_toNat, Nat.shiftRight_eq_div_pow]
  omega

@[simp] theorem be64_low (high low : Word) : (be64 high low).extractLsb' 0 32 = low := by
  refine BitVec.eq_of_toNat_eq ?_
  rw [BitVec.extractLsb'_toNat, be64_toNat, Nat.shiftRight_zero]
  omega

/-- The first stage's sum as numbers: the service stands in the top byte, the position below it (R52). -/
theorem keystream_mixed (low : Word) (n : Byte) (p : BitVec 24) :
    low + (n.setWidth 32 <<< 24) + p.setWidth 32 = BitVec.ofNat 32 (low.toNat + n.toNat * 2 ^ 24 + p.toNat) := by
  refine BitVec.eq_of_toNat_eq ?_
  simp only [BitVec.toNat_add, BitVec.toNat_shiftLeft, BitVec.toNat_setWidth, BitVec.toNat_ofNat, Nat.shiftLeft_eq]
  omega

/-- The shift of the last stage as a division (R52). -/
theorem word_ushiftRight (y : Word) (k : Nat) : y >>> k = BitVec.ofNat 32 (y.toNat / 2 ^ k) := by
  rw [← Nat.shiftRight_eq_div_pow, ← BitVec.toNat_ushiftRight, BitVec.ofNat_toNat, BitVec.setWidth_eq]

/-- The third stage's product, modulo 2^32 (R52). -/
theorem word_mul_ofNat (x : Word) (m : Nat) : x * BitVec.ofNat 32 m = BitVec.ofNat 32 (x.toNat * m) := by
  rw [BitVec.ofNat_mul, BitVec.ofNat_toNat, BitVec.setWidth_eq]

theorem payloadPosition_toNat (c : BitVec 4) {k : Nat} (hk : k ≤ 30) : (payloadPosition c k).toNat = c.toNat * 65536 + k := by
  rw [payloadPosition, BitVec.toNat_ofNat]
  omega

theorem unwrapPosition_toNat (w : BitVec 16) {i : Nat} (hi : i ≤ 3) :
    (unwrapPosition w i).toNat = 0x800000 + w.toNat * 4 + i := by
  rw [unwrapPosition, BitVec.toNat_ofNat]
  omega

theorem payloadPosition_ne_unwrapPosition (c : BitVec 4) (w : BitVec 16) {k i : Nat} (hk : k ≤ 30) (hi : i ≤ 3) :
    payloadPosition c k ≠ unwrapPosition w i := by
  intro h
  have hnumbers := congrArg BitVec.toNat h
  rw [payloadPosition_toNat c hk, unwrapPosition_toNat w hi] at hnumbers
  omega

/-- Descrambling is its own inverse (R54). -/
@[simp] theorem descrambleWord_descrambleWord (key : BitVec 64) (n : Byte) (c : BitVec 4) (k : Nat) (x : Word) :
    descrambleWord key n c k (descrambleWord key n c k x) = x := by
  rw [descrambleWord, descrambleWord, BitVec.xor_assoc, BitVec.xor_self, BitVec.xor_zero]

/-! ## Pair selection (R58) -/

section
variable {e : Entry} {v : ServiceSlot}

theorem choosePair_nokey (hk : e.keyed = false) : choosePair e v = .nokey := if_pos hk

theorem choosePair_keyed (hk : e.keyed = true) : choosePair e v =
    if e.epoch = v.epoch ∧ v.current.valid = true then .pair v.current
    else if e.epoch = v.epoch - 1 ∧ v.previous.valid = true then .pair v.previous
    else .stale := if_neg (by simp [hk])

theorem choosePair_current (hk : e.keyed = true) (hc : e.epoch = v.epoch ∧ v.current.valid = true) :
    choosePair e v = .pair v.current := (choosePair_keyed hk).trans (if_pos hc)

theorem choosePair_previous (hk : e.keyed = true) (hc : ¬ (e.epoch = v.epoch ∧ v.current.valid = true))
    (hp : e.epoch = v.epoch - 1 ∧ v.previous.valid = true) : choosePair e v = .pair v.previous :=
  (choosePair_keyed hk).trans ((if_neg hc).trans (if_pos hp))

theorem choosePair_stale (hk : e.keyed = true) (hc : ¬ (e.epoch = v.epoch ∧ v.current.valid = true))
    (hp : ¬ (e.epoch = v.epoch - 1 ∧ v.previous.valid = true)) : choosePair e v = .stale :=
  (choosePair_keyed hk).trans ((if_neg hc).trans (if_neg hp))

end

/-! ## QUERY_TITLE (R79) -/

section
variable {s : State} {title : BitVec 16}

theorem State.runQueryTitle_noTitle (h : title = 0 ∨ s.title? title = none) :
    s.runQueryTitle title = (s, .noTitle, .absent) := by
  unfold State.runQueryTitle
  cases hfind : s.title? title with
  | none => rfl
  | some e => exact if_pos (h.resolve_right (by simp [hfind]))

theorem State.runQueryTitle_listed {e : TitleEntry} (h0 : title ≠ 0) (he : s.title? title = some e) :
    s.runQueryTitle title =
      (s, .done, .queryTitle e.state e.rating e.used e.limit e.price (s.rentalRemaining e) e.state.sequence) := by
  unfold State.runQueryTitle
  rw [he]
  exact if_neg h0

theorem State.rentalRemaining_purchased {e : TitleEntry} {second sequence : Nat} (h : e.state = .purchased second sequence) :
    s.rentalRemaining e = second + e.hours * 3600 - s.stay.seconds := by
  rw [State.rentalRemaining, h]

theorem State.rentalRemaining_lapsed {e : TitleEntry} {second sequence : Nat} (h : e.state = .lapsed second sequence) :
    s.rentalRemaining e = 0 := by
  rw [State.rentalRemaining, h]

/-- A title that no purchase stands behind has its whole rental left, and no purchase sequence (R79). -/
theorem State.rentalRemaining_unpurchased {e : TitleEntry}
    (h : e.state = .offered ∨ e.state = .preview ∨ e.state = .exhausted) :
    s.rentalRemaining e = e.hours * 3600 ∧ e.state.sequence = 0 := by
  unfold State.rentalRemaining
  rcases h with h | h | h <;> rw [h] <;> exact ⟨rfl, rfl⟩

end

end Sys2Proof.Machine

namespace Sys2Proof.Proofs
open Sys2Proof Sys2Proof.Machine

/-- Settles O21: the stages of the keystream one by one, and the two ranges of positions apart by bit 23. -/
theorem theKeystreamFollowsItsFourStages : Obligations.TheKeystreamFollowsItsFourStages := by
  unfold Obligations.TheKeystreamFollowsItsFourStages
  refine ⟨fun high low n p => ?_, fun c k w i hk hi => ?_⟩
  · simp only [keystream, be64_high, be64_low, keystream_mixed, word_mul_ofNat, word_ushiftRight]
  · have hpayload := payloadPosition_toNat c hk
    have hunwrap := unwrapPosition_toNat w hi
    exact ⟨hpayload, by omega, hunwrap, by omega, payloadPosition_ne_unwrapPosition c w hk hi,
      fun key n x => ⟨rfl, descrambleWord_descrambleWord key n c k x, rfl⟩⟩

/-- Settles O22, test by test of `choosePair`. -/
theorem thePairIsChosenByEpoch : Obligations.ThePairIsChosenByEpoch := by
  unfold Obligations.ThePairIsChosenByEpoch
  exact fun e v => ⟨choosePair_nokey, fun hk he hv => choosePair_current hk ⟨he, hv⟩,
    fun hk hc he hv => choosePair_previous hk hc ⟨he, hv⟩, choosePair_stale⟩

/-- Settles O29: each command answers what its owner runs, and QUERY_TITLE by the state of the entry. -/
theorem queriesSiteKeyAndUnknownComplete : Obligations.QueriesSiteKeyAndUnknownComplete := by
  unfold Obligations.QueriesSiteKeyAndUnknownComplete
  refine ⟨fun tag s => ⟨fun key h => answers_of_takes (exec_siteKey tag key s) h rfl,
    fun h => answers_of_takes (exec_stayQuery tag s) h rfl,
    fun code h => answers_of_takes (exec_unknown tag code s) h rfl⟩, fun tag title s h => ?_⟩
  have hanswer : ∀ {a}, s.runQueryTitle title = (s, a) → Declines (.queryTitle tag title) tag 0x10 s a :=
    answers_of_takes (exec_queryTitle tag title s) h
  refine ⟨fun hnone => hanswer (State.runQueryTitle_noTitle hnone), fun e h0 he => ?_⟩
  have hrun := State.runQueryTitle_listed h0 he
  refine ⟨fun second sequence hstate => hanswer ?_, fun second sequence hstate => hanswer ?_, fun hstate => hanswer ?_⟩
  · rw [hrun, State.rentalRemaining_purchased hstate, hstate]
    rfl
  · rw [hrun, State.rentalRemaining_lapsed hstate, hstate]
    rfl
  · obtain ⟨hremaining, hsequence⟩ := State.rentalRemaining_unpurchased (s := s) hstate
    rw [hrun, hremaining, hsequence]

end Sys2Proof.Proofs
end

section
/-! # What a step can do to the lock, the stay, the tariff and the title table

The items that LockSafe and TitleSafe rest on are the room's view of the state. Every step but a decay of the retained store keeps
both invariants (`exec_roomKept`); outside RUN the view stands sealed, so that a part that does not stand by its retained items
comes to stand by them in a COLD restart alone (`exec_of_distrusted`). -/

namespace Sys2Proof.Machine

/-! ## The room's view -/

/-- What the lock unit, the stay and the title table rest on (section 6.2, R64, R65, R129, R130). -/
structure RoomView where
  lock : Lock
  stay : Stay
  tariff : Tariff
  titles : List TitleEntry

/-- The room's view of a state. -/
def State.roomView (s : State) : RoomView := ⟨s.lock, s.stay, s.tariff, s.titles⟩

/-- A piece of work keeps the lock, the stay and the tariff, and the title table, within their ranges. -/
structure RoomKept (s t : State) : Prop where
  lock : LockSafe s → LockSafe t
  titles : TitleSafe s → TitleSafe t

theorem RoomKept.refl (s : State) : RoomKept s s := ⟨id, id⟩

theorem RoomKept.trans {s t u : State} (h : RoomKept s t) (k : RoomKept t u) : RoomKept s u :=
  ⟨fun hs => k.lock (h.lock hs), fun hs => k.titles (h.titles hs)⟩

/-- Work that keeps the ranges after such work, the later one named first. -/
theorem RoomKept.after {s t u : State} (k : RoomKept t u) (h : RoomKept s t) : RoomKept s u := h.trans k

theorem LockSafe.congr {s t : State} (hl : t.lock = s.lock) (hy : t.stay = s.stay) (ht : t.tariff = s.tariff)
    (h : LockSafe s) : LockSafe t := by
  unfold LockSafe
  rwa [hl, hy, ht]

/-- The title table rests on its entries and on the stay state alone. -/
theorem TitleSafe.congr {s t : State} (ht : t.titles = s.titles) (hy : t.stay.state = s.stay.state) (h : TitleSafe s) :
    TitleSafe t := by
  unfold TitleSafe
  rwa [ht, hy]

/-- Work that the room's view does not show keeps both. -/
theorem RoomKept.of_view {s t : State} (h : t.roomView = s.roomView) : RoomKept s t :=
  ⟨LockSafe.congr (congrArg RoomView.lock h) (congrArg RoomView.stay h) (congrArg RoomView.tariff h),
    TitleSafe.congr (congrArg RoomView.titles h) (congrArg (Stay.state ∘ RoomView.stay) h)⟩

/-- A choice between works that keep the ranges keeps them. -/
theorem RoomKept.ite {p : Prop} [Decidable p] {s t u : State} (h : p → RoomKept s t) (k : ¬ p → RoomKept s u) :
    RoomKept s (if p then t else u) := by
  split
  · exact h ‹_›
  · exact k ‹_›

/-- A command that is declined on a test, or goes on, keeps the ranges if both do. -/
theorem RoomKept.ite_fst {p : Prop} [Decidable p] {s : State} {x y : State × Answer} (h : p → RoomKept s x.1)
    (k : ¬ p → RoomKept s y.1) : RoomKept s (if p then x else y).1 := by
  split
  · exact h ‹_›
  · exact k ‹_›

/-- A step that may not be taken keeps the ranges if it does where it is taken. -/
theorem RoomKept.getD {s : State} {o : Option State} (h : ∀ t, o = some t → RoomKept s t) : RoomKept s (o.getD s) := by
  cases o with
  | none => exact .refl s
  | some t => exact h t rfl

/-! ### The shared operations leave the view -/

@[simp] theorem State.hand_room (s : State) (b : ReportBody) : (s.hand b).roomView = s.roomView := by simp [State.roomView]

@[simp] theorem State.raiseEvent_room (s : State) (e : Event) : (s.raiseEvent e).roomView = s.roomView := s.hand_room _

@[simp] theorem State.raiseEvent?_room (s : State) (e : Option Event) : (s.raiseEvent? e).roomView = s.roomView := by
  cases e with
  | none => rfl
  | some e => exact s.raiseEvent_room e

@[simp] theorem State.placeFirst_room (s : State) (r : Report) : (s.placeFirst r).roomView = s.roomView := by
  simp [State.roomView]

@[simp] theorem State.handOver_room (s : State) : s.handOver.roomView = s.roomView := by simp [State.roomView]

@[simp] theorem State.request_room (s : State) (a : Agent) : (s.request a).roomView = s.roomView := by simp [State.roomView]

@[simp] theorem State.requestMedia_room (s : State) : s.requestMedia.roomView = s.roomView := by simp [State.roomView]

@[simp] theorem State.finishFetch_room (s : State) (tag : Word) (code : Byte) (a : Answer) :
    (s.finishFetch tag code a).roomView = s.roomView := by simp [State.roomView]

theorem State.advanceRegion_room (s : State) : s.advanceRegion.roomView = s.roomView := by
  unfold State.advanceRegion
  split
  · rfl
  · split
    · exact State.raiseEvent_room _ _
    · rfl

/-! ### The memory path, the lanes and the log regions leave the view -/

/-- No event of the store port and its bursts touches the room's items. -/
theorem PortMove.room {s t : State} (h : PortMove s t) : t.roomView = s.roomView := by
  cases h with
  | commandPhase h =>
    rcases State.takeCommandPhase_some h with ⟨-, rfl⟩ | ⟨-, rfl⟩
    · exact State.requestMedia_room _
    · rfl
  | complete h =>
    obtain ⟨-, -, m, u, -, -, hu, rfl⟩ := State.completeMedia_some h
    rw [(State.lastWords_some hu).1]
    exact State.handOver_room _
  | resume h =>
    obtain ⟨m, -, -, rfl⟩ := State.resumeMedia_some h
    exact State.requestMedia_room _
  | rewrite m h => rfl
  | reportTail w => rfl
  | beginFetch h =>
    obtain ⟨-, rfl⟩ := State.beginFetch_some h
    exact State.request_room _ _
  | finishFetch h tag code a => exact s.finishFetch_room tag code a
  | takeReport h =>
    obtain ⟨r, rest, -, -, rfl | ⟨w, rfl⟩⟩ := State.takeReport_some h
    · rfl
    · exact State.request_room _ _
  | completeReport h =>
    obtain ⟨addr, data, w, -, -, rfl⟩ := State.completeReport_some h
    exact State.handOver_room _
  | beginLog h =>
    obtain ⟨-, w, rfl⟩ := State.beginLog_some h
    exact State.request_room _ _
  | completeLog h =>
    obtain ⟨addr, data, w, list, -, -, rfl⟩ := State.completeLog_some h
    exact (State.handOver_room _).trans (State.advanceRegion_room _)
  | discard h =>
    obtain ⟨a, addr, data, -, rfl⟩ := State.discardHouse_some h
    rw [State.dropOrphan_eq]
    exact State.handOver_room _
  | orphanEnds h => exact s.handOver_room
  | lineHolds words =>
    rw [s.lineHolds_eq words]
    rfl

theorem State.joinSlot_room (s : State) (service : Byte) : (s.joinSlot service).roomView = s.roomView := by
  unfold State.joinSlot
  split
  · rfl
  · split <;> rfl

theorem State.leaveSlot_room (s : State) (service : Byte) : (s.leaveSlot service).roomView = s.roomView := by
  unfold State.leaveSlot
  split <;> rfl

theorem State.runBind_room (s : State) (lane role service : Byte) (base slots : Nat) :
    (s.runBind lane role service base slots).1.roomView = s.roomView := by
  unfold State.runBind
  split
  · rfl
  · dsimp only
    split
    · rfl
    · exact State.joinSlot_room _ _

theorem State.runUnbind_room (s : State) (lane : Byte) : (s.runUnbind lane).1.roomView = s.roomView := by
  unfold State.runUnbind
  split
  · rfl
  · split
    · rfl
    · exact State.leaveSlot_room _ _

theorem State.runLogRegion_room (s : State) (base slots : Nat) : (s.runLogRegion base slots).1.roomView = s.roomView := by
  rcases s.runLogRegion_cases base slots with ⟨r, -, h⟩ | ⟨-, -, h⟩ | ⟨r, -, -, h⟩ <;> rw [h] <;> rfl

/-! ### The anchor block leaves the view -/

/-- An anchor word's write leaves the room's items if what it acts on does. -/
theorem State.anchorStep_room {s t : State} {at? : Nat → Bool} {w : WriteWord} {act : State → Nat → State}
    (hact : ∀ u a, (act u a).roomView = u.roomView) (h : s.anchorStep at? w act = some t) : t.roomView = s.roomView := by
  unfold State.anchorStep at h
  split at h
  · contradiction
  · split at h
    · obtain rfl := Option.some.inj h
      split
      · rfl
      · exact hact _ _
    · contradiction

theorem State.latchBase_room (s : State) (w : WriteWord) (a : Nat) : (s.latchBase w a).roomView = s.roomView := by
  unfold State.latchBase
  split
  · rfl
  · split <;> rfl

theorem State.openCommandRing_room (s : State) : s.openCommandRing.roomView = s.roomView := by
  have h : s.orphanFetch.roomView = s.roomView := by
    rcases s.orphanFetch_cases with ⟨-, h⟩ | ⟨a, d, o, -, h⟩ | h <;> rw [h] <;> rfl
  exact h

theorem State.writeCommandSlots_room (s : State) (w : WriteWord) : (s.writeCommandSlots w).roomView = s.roomView :=
  State.openCommandRing_room _

theorem State.writeCommandTail_room (s : State) (w : WriteWord) : (s.writeCommandTail w).roomView = s.roomView := rfl

theorem State.placeRestartReports_room (s : State) : s.placeRestartReports.roomView = s.roomView := by
  unfold State.placeRestartReports
  dsimp only
  split <;> split <;> simp

theorem State.openReportRing_room (s : State) : s.openReportRing.roomView = s.roomView := by
  have h : s.orphanReport.roomView = s.roomView := by
    rcases s.orphanReport_cases with ⟨w, -, -, h⟩ | ⟨a, d, w, -, -, h⟩ | h <;> rw [h]
    · exact State.placeFirst_room _ _
    · rfl
  unfold State.openReportRing
  dsimp only
  split
  · exact (State.placeRestartReports_room _).trans h
  · exact h

theorem State.writeReportSlots_room (s : State) (w : WriteWord) : (s.writeReportSlots w).roomView = s.roomView :=
  State.openReportRing_room _

end Sys2Proof.Machine
end

section
namespace Sys2Proof.Machine

/-! ## The title table (R64 to R70) -/

/-- Work on the title table alone keeps the lock, the stay and the tariff as they are. -/
theorem RoomKept.of_titles {s t : State} (hl : t.lock = s.lock) (hy : t.stay = s.stay) (ht : t.tariff = s.tariff)
    (h : TitleSafe s → TitleSafe t) : RoomKept s t := ⟨LockSafe.congr hl hy ht, h⟩

/-- Work on the lock, the stay's items and the tariff keeps the title table while the stay state stands. -/
theorem RoomKept.of_lock {s t : State} (ht : t.titles = s.titles) (hy : t.stay.state = s.stay.state)
    (h : LockSafe s → LockSafe t) : RoomKept s t := ⟨h, TitleSafe.congr ht hy⟩

/-- With no two entries of one number (R65), the entry found for a number is the one that has it. -/
theorem TitleSafe.eq_of_title? {s : State} (h : TitleSafe s) {n : BitVec 16} {e x : TitleEntry} (he : s.title? n = some e)
    (hx : x ∈ s.titles) (hn : x.number = n) : x = e := by
  obtain ⟨hmem, rfl⟩ := State.title?_eq_some he
  obtain ⟨-, hnodup, -⟩ := h
  exact List.inj_on_of_nodup_map hnodup hx hmem hn

/-- Entries of a number changed in neither that number nor their range leave the table in its ranges. -/
theorem TitleSafe.update {s : State} (h : TitleSafe s) {n : BitVec 16} {f : TitleEntry → TitleEntry}
    (hnumber : ∀ e, (f e).number = e.number)
    (hfit : ∀ e ∈ s.titles, e.number = n → e.fits s.stay.state → (f e).fits s.stay.state) : TitleSafe (s.updateTitle n f) := by
  obtain ⟨hlen, hnodup, hall⟩ := h
  refine ⟨by simpa using hlen, ?_, fun x hx => ?_⟩
  · have hnumbers : (s.updateTitle n f).titles.map TitleEntry.number = s.titles.map TitleEntry.number := by
      simp [Function.comp_def, apply_ite TitleEntry.number, hnumber]
    rwa [hnumbers]
  · obtain ⟨e, he, rfl⟩ := List.mem_map.mp hx
    split
    · exact hfit e he (beq_iff_eq.mp ‹_›) (hall e he)
    · exact hall e he

/-- The entry found for a number changed in neither its number nor its range leaves the table in its ranges. -/
theorem TitleSafe.update_found {s : State} (h : TitleSafe s) {n : BitVec 16} {e : TitleEntry} (he : s.title? n = some e)
    {f : TitleEntry → TitleEntry} (hnumber : ∀ e, (f e).number = e.number)
    (hfit : e.fits s.stay.state → (f e).fits s.stay.state) : TitleSafe (s.updateTitle n f) :=
  h.update hnumber fun x hx hn => by
    obtain rfl := h.eq_of_title? he hx hn
    exact hfit

/-- A table whose entries stand in another order is in its ranges alike. -/
theorem TitleSafe.of_perm {s t : State} (hp : t.titles.Perm s.titles) (hy : t.stay = s.stay) (h : TitleSafe s) :
    TitleSafe t := by
  obtain ⟨hlen, hnodup, hall⟩ := h
  exact ⟨hp.length_eq.trans_le hlen, (hp.map _).nodup_iff.mpr hnodup, fun e he => hy ▸ hall e (hp.mem_iff.mp he)⟩

/-- The entries a restart keeps are in their ranges, whatever the stay state they come to stand in (R80, R81). -/
theorem TitleSafe.kept {s t : State} (ht : t.titles = keptTitles s.titles) (hy : t.stay.state = s.stay.state)
    (h : TitleSafe s) : TitleSafe t := by
  obtain ⟨hlen, hnodup, hall⟩ := h
  have hnumbers : t.titles.map TitleEntry.number = (s.titles.filter fun e => e.state != .offered).map TitleEntry.number := by
    simp [ht, keptTitles, Function.comp_def, TitleEntry.unseen]
  refine ⟨?_, hnumbers ▸ hnodup.sublist (List.filter_sublist.map _), fun x hx => ?_⟩
  · simpa [ht, keptTitles] using (List.length_filter_le _ _).trans hlen
  · rw [ht] at hx
    obtain ⟨e, he, rfl⟩ := List.mem_map.mp hx
    exact hy ▸ hall e (List.mem_of_mem_filter he)

/-- The terms of a title are those that a TITLE notice can give (R37). -/
def TitleTerms.inRange (t : TitleTerms) : Prop :=
  t.rating ≤ 7 ∧ t.price ≤ 65535 ∧ t.limit ≤ 900 ∧ 1 ≤ t.hours ∧ t.hours ≤ 72

theorem titleTerms_inRange (p : List Byte) : (titleTerms p).inRange := by
  have hprice := (noticeHalf p 5).isLt
  have hhours := readHours_eq (noticeByte p 9)
  have hrange : 1 ≤ readHours (noticeByte p 9) ∧ readHours (noticeByte p 9) ≤ 72 := by
    rw [hhours]
    split
    · omega
    · split <;> omega
  exact ⟨min_le_right _ _, Nat.le_of_lt_succ hprice, min_le_right _ _, hrange⟩

/-- A new entry is in its ranges (R66). -/
theorem State.newEntry_fits {s : State} {t : TitleTerms} (h0 : t.number ≠ 0) (h : t.inRange) :
    (s.newEntry t).fits s.stay.state := by
  obtain ⟨hrating, hprice, hlimit, hlow, hhigh⟩ := h
  have hstart : (s.newEntry t).state = if t.limit = 0 ∧ s.stay.state ≠ .vacant then .exhausted else .offered := rfl
  refine ⟨h0, hrating, hprice, hlimit, hlow, hhigh, Nat.zero_le _, fun _ => rfl, ?_, ?_, ?_⟩ <;> rw [hstart] <;> split
  · exact fun h => TitleState.noConfusion h
  · exact fun h => TitleState.noConfusion h
  · exact fun h => TitleState.noConfusion h
  · exact fun _ hy => Nat.one_le_iff_ne_zero.mpr fun hl => ‹¬ (_ ∧ _)› ⟨hl, hy⟩
  · exact fun hy => absurd hy (‹_ ∧ _›).2
  · exact fun _ => rfl

theorem State.title?_eq_none {s : State} {n : BitVec 16} (h : s.title? n = none) : ∀ e ∈ s.titles, e.number ≠ n := by
  simpa [State.title?] using h

/-- A title not in the table joins it where there is room (R65, R66). -/
theorem TitleSafe.enter {s : State} {t : TitleTerms} (h : TitleSafe s) (hlen : s.titles.length < 32) (h0 : t.number ≠ 0)
    (ht : t.inRange) (hnew : ∀ e ∈ s.titles, e.number ≠ t.number) : TitleSafe (s.enter t) := by
  obtain ⟨-, hnodup, hall⟩ := h
  refine ⟨by simpa [State.enter] using hlen, ?_, fun e he => ?_⟩
  · have hnumber : (s.newEntry t).number = t.number := rfl
    simpa [State.enter, List.nodup_append, hnodup, hnumber] using hnew
  · rcases List.mem_append.mp he with he | he
    · exact hall e he
    · exact List.mem_singleton.mp he ▸ State.newEntry_fits h0 ht

/-- A title leaves the table (R67). -/
theorem TitleSafe.removeTitle {s : State} (h : TitleSafe s) (n : BitVec 16) : TitleSafe (s.removeTitle n) := by
  obtain ⟨hlen, hnodup, hall⟩ := h
  exact ⟨(List.length_filter_le _ _).trans hlen, hnodup.sublist (List.filter_sublist.map _),
    fun e he => hall e (List.mem_of_mem_filter he)⟩

/-- A registration of a title not in the table keeps it in its ranges (R66, R67, R68). -/
theorem TitleSafe.register {s : State} {t : TitleTerms} (h : TitleSafe s) (h0 : t.number ≠ 0) (ht : t.inRange)
    (hnone : s.title? t.number = none) : TitleSafe (s.register t) := by
  have hnew := State.title?_eq_none hnone
  by_cases hroom : s.titles.length < 32
  · rw [State.register_room hroom]
    exact h.enter hroom h0 ht hnew
  · have hfull := Nat.not_lt.mp hroom
    cases hvictim : s.victim with
    | none =>
      rw [State.register_refused hfull hvictim]
      unfold State.refuse
      split
      · exact h
      · exact h.congr (State.raiseEvent_titles _ _) (by rw [State.raiseEvent_stay])
    | some e =>
      rw [State.register_evicts hfull hvictim]
      refine (h.removeTitle e.number).enter ?_ h0 ht fun x hx => hnew x (List.mem_of_mem_filter hx)
      have hlt : (s.removeTitle e.number).titles.length < s.titles.length :=
        List.length_filter_lt_length_iff_exists.mpr ⟨e, List.mem_of_find?_eq_some hvictim, by simp⟩
      exact hlt.trans_le h.1

theorem State.refuse_room (s : State) (n : BitVec 16) : (s.refuse n).roomView = s.roomView := by
  unfold State.refuse
  split
  · rfl
  · exact State.raiseEvent_room _ _

theorem State.register_lock (s : State) (t : TitleTerms) :
    (s.register t).lock = s.lock ∧ (s.register t).stay = s.stay ∧ (s.register t).tariff = s.tariff := by
  unfold State.register
  split
  · exact ⟨rfl, rfl, rfl⟩
  · split
    · exact ⟨rfl, rfl, rfl⟩
    · have h := s.refuse_room t.number
      exact ⟨congrArg RoomView.lock h, congrArg RoomView.stay h, congrArg RoomView.tariff h⟩

theorem State.register_kept {s : State} {t : TitleTerms} (h0 : t.number ≠ 0) (ht : t.inRange)
    (hnone : s.title? t.number = none) : RoomKept s (s.register t) :=
  have ⟨hl, hy, htariff⟩ := s.register_lock t
  .of_titles hl hy htariff fun h => h.register h0 ht hnone

/-- A title taking the most recent position leaves the entries as they are (R39, R65). -/
theorem State.refreshTitle_kept (s : State) (n : BitVec 16) : RoomKept s (s.refreshTitle n) :=
  .of_titles rfl rfl rfl (TitleSafe.of_perm
    (by simpa [State.refreshTitle, bne] using List.filter_append_perm (fun e : TitleEntry => e.number != n) s.titles) rfl)

/-- A valid TITLE notice keeps the title table in its ranges (R38, R39, R40). -/
theorem State.titleNotice_kept (s : State) (i : Fin 4) {t : TitleTerms} (ht : t.inRange) : RoomKept s (s.titleNotice i t) := by
  have hslot : ∀ o, RoomKept s (s.setSlot i o) := fun _ => .of_view rfl
  have hterms : ∀ u r p, RoomKept u (u.setSlotTerms i r p) := fun _ _ _ => .of_view rfl
  refine .ite (fun _ => (hterms _ _ _).after (hslot _)) fun h0 => ?_
  split
  · exact (hterms _ _ _).after ((State.refreshTitle_kept _ _).after (hslot _))
  · exact (hterms _ _ _).after ((State.register_kept h0 ht ‹_›).after (hslot _))

theorem parseNotice_terms {p : List Byte} {t : TitleTerms} (h : parseNotice p = some (.title t)) : t = titleTerms p := by
  unfold parseNotice at h
  split at h
  · contradiction
  · split at h
    · exact (Notice.title.inj (Option.some.inj h)).symm
    · simp at h

theorem State.applyNotice_kept (s : State) (service : Byte) (p : List Byte) : RoomKept s (s.applyNotice service p) := by
  unfold State.applyNotice
  split
  · rename_i h
    exact s.titleNotice_kept _ (parseNotice_terms h ▸ titleTerms_inRange p)
  · exact .of_view rfl
  · exact .refl s

/-- A seen mark leaves every entry in its ranges (R70, R108). -/
theorem State.applyMark_kept (s : State) (m : BitVec 16 × Role) : RoomKept s (s.applyMark m) :=
  .of_titles rfl rfl rfl fun h => h.update (fun e => by cases m.2 <;> rfl) fun e _ _ hfit => by
    cases m.2 <;> exact hfit

/-! ## The lane engine's words -/

theorem State.takeHeader_kept (s : State) (n : Fin 4) (addr : Nat) (w : WriteWord) : RoomKept s (s.takeHeader n addr w) := by
  unfold State.takeHeader
  split
  · exact .refl s
  · exact .ite (fun _ => .refl s) fun _ => .of_view (State.raiseEvent?_room _ _)

theorem State.takePayload_kept (s : State) (n : Fin 4) (addr : Nat) (w : WriteWord) : RoomKept s (s.takePayload n addr w) := by
  unfold State.takePayload
  split
  · refine .ite (fun _ => ?_) fun _ => .refl s
    dsimp only
    split
    · exact (State.applyNotice_kept _ _ _).after (.of_view rfl)
    · exact .of_view rfl
  · exact .refl s

theorem State.laneWriteStep_kept {s t : State} {header : Bool} {w : WriteWord} {take : State → Fin 4 → Nat → State}
    (htake : ∀ u n a, RoomKept u (take u n a)) (h : s.laneWriteStep header w take = some t) : RoomKept s t := by
  unfold State.laneWriteStep at h
  split at h
  · contradiction
  · split at h
    · split at h
      · obtain rfl := Option.some.inj h
        exact .ite (fun _ => (htake _ _ _).after (.of_view rfl)) fun _ => .of_view rfl
      · contradiction
    · contradiction

theorem State.firstPayload_kept (s : State) (t : MediaTxn) (n : Fin 4) (j : Judgement) : RoomKept s (s.firstPayload t n j) := by
  unfold State.firstPayload
  refine .ite (fun _ => ?_) fun _ => .refl s
  split
  · exact .refl s
  · dsimp only
    split
    · exact (State.applyMark_kept _ _).after (.of_view rfl)
    · exact .of_view rfl

theorem State.laneReadStep_kept {s t : State} (h : s.laneReadStep = some t) : RoomKept s t := by
  have hshown : ∀ p, RoomKept s { s with presented := p } := fun _ => .of_view rfl
  have hpassed : ∀ (u : State) m, RoomKept u (u.passWord m) := fun _ _ => .of_view rfl
  unfold State.laneReadStep at h
  split at h
  · contradiction
  · split at h
    · dsimp only at h
      split at h
      · obtain rfl := Option.some.inj h
        exact (hpassed _ _).after ((State.firstPayload_kept _ _ _ _).after (hshown _))
      · obtain rfl := Option.some.inj h
        exact (hpassed _ _).after (hshown _)
    · contradiction

end Sys2Proof.Machine
end

section
namespace Sys2Proof.Machine

/-! ## The viewing meter (R71 to R75) -/

/-- An entry with one preview second counted, steps 1 and 2 of R72. -/
def TitleEntry.counted (e : TitleEntry) : TitleEntry := { e with used := e.used + 1, state := .preview }

theorem TitleEntry.previewing_iff (e : TitleEntry) : e.previewing = true ↔ e.state = .offered ∨ e.state = .preview := by
  unfold TitleEntry.previewing
  cases e.state <;> simp

theorem State.counts_iff (s : State) (e : TitleEntry) : s.counts e = true ↔
    s.stay.state = .occupied ∧ (e.state = .offered ∨ e.state = .preview) ∧ (e.seenMain = true ∨ e.seenMosaic = true) := by
  simp [State.counts, TitleEntry.previewing_iff, TitleEntry.seen, and_assoc]

theorem TitleEntry.atEnd_iff (e : TitleEntry) : e.atEnd = true ↔ e.used + 1 = e.limit := beq_iff_eq

theorem State.rentalDue_iff (s : State) (e : TitleEntry) : s.rentalDue e = true ↔
    ∃ second sequence, e.state = .purchased second sequence ∧ s.stay.state ≠ .vacant ∧
      second + e.hours * 3600 ≤ s.stay.seconds := by
  unfold State.rentalDue
  cases e.state <;> simp

/-- An entry changed twice under one number is changed by both works in turn. -/
theorem State.updateTitle_updateTitle (s : State) (n : BitVec 16) {f : TitleEntry → TitleEntry}
    (g : TitleEntry → TitleEntry) (hf : ∀ e, (f e).number = e.number) :
    (s.updateTitle n f).updateTitle n g = s.updateTitle n (fun e => g (f e)) := by
  have hentry : ∀ e : TitleEntry, (if (if e.number == n then f e else e).number == n then g (if e.number == n then f e else e)
      else if e.number == n then f e else e) = if e.number == n then g (f e) else e := by
    intro e
    by_cases h : e.number = n <;> simp [h, hf]
  simp only [State.updateTitle, List.map_map, Function.comp_def, hentry]

/-- The room's view of a change to an entry rests on the view alone. -/
theorem State.updateTitle_room_congr {s t : State} (h : t.roomView = s.roomView) (n : BitVec 16) (f : TitleEntry → TitleEntry) :
    (t.updateTitle n f).roomView = (s.updateTitle n f).roomView :=
  congrArg (fun v : RoomView => { v with titles := v.titles.map fun e : TitleEntry => if e.number == n then f e else e }) h

theorem State.countPreview_room (s : State) (e : TitleEntry) :
    (s.countPreview e).roomView = (s.updateTitle e.number TitleEntry.counted).roomView := by
  unfold State.countPreview
  dsimp only
  split
  · exact State.raiseEvent_room _ _
  · rfl

theorem State.exhaust_room (s : State) (n : BitVec 16) (r : PreviewReason) :
    (s.exhaust n r).roomView = (s.updateTitle n fun x => { x with state := .exhausted }).roomView :=
  State.raiseEvent_room _ _

/-- What a commit's checks find when none fails (R113). -/
theorem State.commitCheck_ok {s : State} {n : BitVec 16} {e : TitleEntry} (h : s.commitCheck n = .ok e) :
    s.stay.state = .occupied ∧ s.title? n = some e ∧ s.commitEntryCheck e = none := by
  unfold State.commitCheck at h
  split at h
  · contradiction
  · contradiction
  · split at h
    · contradiction
    · split at h
      · contradiction
      · obtain rfl := Except.ok.inj h
        exact ⟨‹_›, ‹_›, ‹_›⟩

/-- An entry whose preview ends stands, with the second counted, in a state beyond PREVIEW: EXHAUSTED or PURCHASED (R73, R74). -/
theorem State.endPreview_room (s : State) (e : TitleEntry) : ∃ state : TitleState, state ≠ .offered ∧ state ≠ .preview ∧
    ((s.countPreview e).endPreview e).roomView =
      (s.updateTitle e.number fun x => { x with used := x.used + 1, state := state }).roomView := by
  have hended : ∀ state : TitleState,
      ((s.countPreview e).updateTitle e.number fun x => { x with state := state }).roomView =
        (s.updateTitle e.number fun x => { x with used := x.used + 1, state := state }).roomView := fun state =>
    (State.updateTitle_room_congr (s.countPreview_room e) _ _).trans
      (congrArg State.roomView (s.updateTitle_updateTitle e.number (f := TitleEntry.counted) _ fun _ => rfl))
  have hexhausted : ∀ r, ((s.countPreview e).exhaust e.number r).roomView =
      (s.updateTitle e.number fun x => { x with used := x.used + 1, state := .exhausted }).roomView := fun r =>
    (State.exhaust_room _ _ _).trans (hended .exhausted)
  unfold State.endPreview
  split
  · split
    · rename_i x hx
      obtain ⟨-, hfound, -⟩ := State.commitCheck_ok hx
      obtain ⟨-, hnumber⟩ := State.title?_eq_some hfound
      refine ⟨.purchased (s.countPreview e).stay.seconds ((s.countPreview e).charges.lastIssued + 1), nofun, nofun, ?_⟩
      rw [State.raiseEvent_room, ← hended, ← hnumber]
      rfl
    · exact ⟨.exhausted, nofun, nofun, hexhausted _⟩
  · exact ⟨.exhausted, nofun, nofun, hexhausted _⟩

/-- An entry in PREVIEW or on offer in an open stay has preview left (R66, R69, R72). -/
theorem TitleEntry.fits.used_lt {e : TitleEntry} {y : StayState} (h : e.fits y) (hy : y ≠ .vacant)
    (he : e.state = .offered ∨ e.state = .preview) : e.used < e.limit := by
  obtain ⟨-, -, -, -, -, -, -, hoffered, hpreview, hallowance, -⟩ := h
  rcases he with he | he
  · rw [hoffered he]
    exact hallowance he hy
  · exact hpreview he

/-- A preview second counted below the limit leaves the entry in its ranges. -/
theorem TitleEntry.fits.counted {e : TitleEntry} {y : StayState} (h : e.fits y) (hy : y ≠ .vacant)
    (he : e.state = .offered ∨ e.state = .preview) (hlimit : e.used + 1 ≠ e.limit) : e.counted.fits y := by
  have hlt := h.used_lt hy he
  obtain ⟨hnumber, hrating, hprice, hmax, hlow, hhigh, -⟩ := h
  exact ⟨hnumber, hrating, hprice, hmax, hlow, hhigh, hlt, nofun, fun _ => lt_of_le_of_ne hlt hlimit, nofun,
    fun hv => absurd hv hy⟩

/-- An entry beyond PREVIEW in an open stay is in its ranges with as many preview seconds as its limit allows. -/
theorem TitleEntry.fits.beyond {e : TitleEntry} {y : StayState} (h : e.fits y) (hy : y ≠ .vacant) {used : Nat}
    (hused : used ≤ e.limit) {state : TitleState} (ho : state ≠ .offered) (hp : state ≠ .preview) :
    ({ e with used := used, state := state } : TitleEntry).fits y := by
  obtain ⟨hnumber, hrating, hprice, hmax, hlow, hhigh, -⟩ := h
  exact ⟨hnumber, hrating, hprice, hmax, hlow, hhigh, hused, fun hs => absurd hs ho, fun hs => absurd hs hp,
    fun hs => absurd hs ho, fun hv => absurd hv hy⟩

theorem TitleEntry.unseen_fits {e : TitleEntry} {y : StayState} : e.unseen.fits y ↔ e.fits y := Iff.rfl

theorem State.clearSeen_kept (s : State) (n : BitVec 16) : RoomKept s (s.clearSeen n) :=
  .of_titles rfl rfl rfl fun h => h.update (fun _ => rfl) fun _ _ _ hfit => hfit

/-- An entry found for a number changed within its ranges leaves the room in its own. -/
theorem State.updateTitle_kept {s t : State} {n : BitVec 16} {e : TitleEntry} (he : s.title? n = some e)
    {f : TitleEntry → TitleEntry} (hview : t.roomView = (s.updateTitle n f).roomView) (hnumber : ∀ e, (f e).number = e.number)
    (hfit : e.fits s.stay.state → (f e).fits s.stay.state) : RoomKept s t :=
  (RoomKept.of_view hview).after (.of_titles rfl rfl rfl fun h => h.update_found he hnumber hfit)

/-- The meter's action on an entry where it does not stand keeps the ranges (R71, R72). -/
theorem State.meterEntry_kept {s : State} {n : BitVec 16} {e : TitleEntry} (he : s.title? n = some e)
    (hstop : ¬ s.meterStops e = true) : RoomKept s (s.meterEntry e) := by
  obtain ⟨-, rfl⟩ := State.title?_eq_some he
  refine (State.clearSeen_kept _ _).after (.ite (fun hcounts => ?_) fun _ => .refl s)
  obtain ⟨hy, hstate, -⟩ := (s.counts_iff e).mp hcounts
  have hvacant : s.stay.state ≠ .vacant := by simp [hy]
  have hlimit : e.used + 1 ≠ e.limit := fun h => hstop (by simp [State.meterStops, hcounts, (e.atEnd_iff).mpr h])
  exact State.updateTitle_kept he (s.countPreview_room e) (fun _ => rfl) fun hfit => hfit.counted hvacant hstate hlimit

theorem State.meterRun_kept (ts : List (BitVec 16)) : ∀ s : State, RoomKept s (State.meterRun ts s) := by
  induction ts with
  | nil => exact fun s => .of_view rfl
  | cons t rest ih =>
    intro s
    simp only [State.meterRun]
    split
    · exact ih s
    · exact .ite (fun _ => .of_view rfl) fun hstop => (ih _).after (State.meterEntry_kept ‹_› hstop)

theorem State.runMeter_kept (s : State) : RoomKept s s.runMeter := State.meterRun_kept _ s

/-- A step of the meter keeps the ranges if its action on the entry where the meter stands does. -/
theorem State.meterStep_kept {s t : State} {acts : State → TitleEntry → Bool} {act : State → TitleEntry → State}
    (hact : ∀ r e, r.title? e.number = some e → acts r e = true → RoomKept r (act r e)) (h : s.meterStep acts act = some t) :
    RoomKept s t := by
  obtain ⟨n, rest, e, -, he, ha, rfl⟩ := State.meterStep_cases h
  obtain ⟨-, rfl⟩ := State.title?_eq_some he
  exact (State.meterRun_kept rest _).after ((State.clearSeen_kept _ _).after ((hact _ e he ha).after s.runMeter_kept))

theorem State.previewEndStep_kept {s t : State} (h : s.previewEndStep = some t) : RoomKept s t := by
  refine State.meterStep_kept (fun r e he ha => ?_) h
  obtain ⟨hcounts, hend⟩ := Bool.and_eq_true_iff.mp ha
  obtain ⟨hy, -, -⟩ := (r.counts_iff e).mp hcounts
  obtain ⟨state, ho, hp, hview⟩ := r.endPreview_room e
  exact State.updateTitle_kept he hview (fun _ => rfl) fun hfit =>
    hfit.beyond (by simp [hy]) (e.atEnd_iff.mp hend).le ho hp

theorem State.rentalLapsedStep_kept {s t : State} (h : s.rentalLapsedStep = some t) : RoomKept s t := by
  refine State.meterStep_kept (fun r e he ha => ?_) h
  obtain ⟨hdue, -⟩ := Bool.and_eq_true_iff.mp ha
  obtain ⟨second, sequence, hstate, hy, -⟩ := (r.rentalDue_iff e).mp hdue
  refine State.updateTitle_kept he (State.raiseEvent_room _ _) (fun x => ?_) fun hfit => ?_
  · split <;> rfl
  · simp only [hstate]
    obtain ⟨-, -, -, -, -, -, hused, -⟩ := id hfit
    exact hfit.beyond hy hused nofun nofun

/-! ## The lift and the lockout at a tick (R88, R91) -/

theorem State.liftExpiredStep_kept {s t : State} (h : s.liftExpiredStep = some t) : RoomKept s t := by
  unfold State.liftExpiredStep at h
  split at h
  · obtain rfl := Option.some.inj h
    refine (RoomKept.of_view (State.raiseEvent_room _ _)).after (.of_lock rfl rfl fun hs => ?_)
    simp_all [LockSafe]
  · contradiction

theorem State.lockoutEndedStep_kept {s t : State} (h : s.lockoutEndedStep = some t) : RoomKept s t := by
  unfold State.lockoutEndedStep at h
  split at h
  · obtain rfl := Option.some.inj h
    refine (RoomKept.of_view (State.raiseEvent_room _ _)).after (.of_lock rfl rfl fun hs => ?_)
    simp_all [LockSafe]
  · contradiction

theorem State.finishMeter_kept (n : Nat) : ∀ s : State, RoomKept s (s.finishMeter n) := by
  induction n with
  | zero => exact fun s => .of_view rfl
  | succ n ih =>
    intro s
    simp only [State.finishMeter]
    split
    · exact (ih _).after (State.previewEndStep_kept ‹_›)
    · split
      · exact (ih _).after (State.rentalLapsedStep_kept ‹_›)
      · exact .of_view rfl

theorem State.settleMeter_kept (s : State) : RoomKept s s.settleMeter := (State.finishMeter_kept _ _).after s.runMeter_kept

theorem State.settleLift_kept (s : State) : RoomKept s s.settleLift := .getD fun _ => State.liftExpiredStep_kept

theorem State.settleLockout_kept (s : State) : RoomKept s s.settleLockout := .getD fun _ => State.lockoutEndedStep_kept

theorem State.settleIn_kept (s : State) (o : TickOrder) : RoomKept s (s.settleIn o) := by
  cases o with
  | meterLiftLockout => exact (s.settleMeter_kept.trans (State.settleLift_kept _)).trans (State.settleLockout_kept _)
  | meterLockoutLift => exact (s.settleMeter_kept.trans (State.settleLockout_kept _)).trans (State.settleLift_kept _)
  | liftMeterLockout => exact (s.settleLift_kept.trans (State.settleMeter_kept _)).trans (State.settleLockout_kept _)
  | liftLockoutMeter => exact (s.settleLift_kept.trans (State.settleLockout_kept _)).trans (State.settleMeter_kept _)
  | lockoutMeterLift => exact (s.settleLockout_kept.trans (State.settleMeter_kept _)).trans (State.settleLift_kept _)
  | lockoutLiftMeter => exact (s.settleLockout_kept.trans (State.settleLift_kept _)).trans (State.settleMeter_kept _)

theorem State.settle_kept (s : State) : RoomKept s s.settle :=
  .ite (fun _ => .refl s) fun _ => (State.settleIn_kept _ _).after (.of_view rfl)

theorem countDown_le (n : Nat) : countDown n ≤ n := by
  unfold countDown
  split <;> omega

theorem Stay.tick_keeps (y : Stay) : y.tick = { y with seconds := y.tick.seconds } ∧
    (y.seconds ≤ 2 ^ 32 - 1 → y.tick.seconds ≤ 2 ^ 32 - 1) := by
  unfold Stay.tick
  split
  · exact ⟨rfl, id⟩
  · exact ⟨rfl, fun _ => min_le_right _ _⟩

/-- The beginning of a tick keeps the ranges (R88, R91, R139). -/
theorem State.beginTick_kept (s : State) : RoomKept s s.beginTick := by
  obtain ⟨hy, hseconds⟩ := s.stay.tick_keeps
  have hstate : s.stay.tick.state = s.stay.state := (congrArg Stay.state hy).trans rfl
  refine .of_lock rfl hstate fun h => ?_
  have hlift := countDown_le s.lock.lift
  have hlockout := countDown_le s.lock.lockout
  unfold LockSafe State.beginTick at *
  dsimp only at *
  rw [hy]
  grind

theorem State.secondsTickStep_kept (s : State) : RoomKept s s.secondsTickStep := by
  have hdrawn : RoomKept s { s.beginTick with freeDraws := s.beginTick.freeDraws + 1 } :=
    s.beginTick_kept.trans (.of_view rfl)
  exact .ite (fun _ => .ite (fun _ => (State.runMeter_kept _).after hdrawn) fun _ => hdrawn) fun _ =>
    (State.runMeter_kept _).after s.beginTick_kept

theorem clockPeriod_kept (s : State) : RoomKept s (clockPeriod s) :=
  .ite
    (fun _ => .ite (fun _ => s.settle_kept.trans (State.secondsTickStep_kept _)) fun _ => s.settle_kept.trans (.of_view rfl))
    fun _ => s.settle_kept

end Sys2Proof.Machine
end

section
namespace Sys2Proof.Machine

/-! ## The commands of the command ring -/

theorem State.inStay_kept (s : State) {run : State → State × Answer}
    (h : s.stay.state = .occupied → RoomKept s (run s).1) : RoomKept s (s.inStay run).1 := by
  rcases s.inStay_cases run with ⟨-, e⟩ | ⟨-, e⟩ | ⟨hy, e⟩ <;> rw [e]
  · exact .refl s
  · exact .refl s
  · exact h hy

/-- A wrong try in an open stay, made with no lockout in force, counts a try or starts a lockout (R87, R88). -/
theorem State.wrongPin_kept {s : State} (hy : s.stay.state = .occupied) (hout : s.lock.lockout = 0) :
    RoomKept s s.wrongPin.1 := by
  unfold State.wrongPin
  split
  · refine .of_lock rfl rfl fun h => ?_
    unfold LockSafe at *
    grind
  · refine (RoomKept.of_view (State.raiseEvent_room _ _)).after (.of_lock rfl rfl fun h => ?_)
    unfold LockSafe at *
    grind

/-- A PIN comparison in an open stay keeps the ranges if the command goes on within them (R86, R87). -/
theorem State.comparePin_kept {s : State} (hy : s.stay.state = .occupied) (p : PinField) {matched : State → State × Answer}
    (h : ∀ u : State, u.stay = s.stay → u.tariff = s.tariff → RoomKept u (matched u).1) :
    RoomKept s (s.comparePin p matched).1 := by
  rcases s.comparePin_cases p matched with ⟨-, e⟩ | ⟨-, -, e⟩ | ⟨hout, -, e⟩ <;> rw [e]
  · exact .refl s
  · refine (h { s with lock := { s.lock with tries := 0 } } rfl rfl).after (.of_lock rfl rfl fun hs => ?_)
    unfold LockSafe at *
    grind
  · exact State.wrongPin_kept hy hout

theorem State.startLift_kept {s : State} (hy : s.stay.state = .occupied) : RoomKept s s.startLift.1 := by
  refine .of_lock rfl rfl fun h => ?_
  unfold LockSafe State.startLift at *
  grind

theorem State.runUnlock_kept (s : State) (p : PinField) : RoomKept s (s.runUnlock p).1 :=
  .ite_fst (fun _ => .refl s) fun _ => s.inStay_kept fun hy => State.comparePin_kept hy p fun _ hu _ =>
    State.startLift_kept (hu ▸ hy)

/-- A lift that ends keeps the ranges (R92). -/
theorem State.endLift_kept (s : State) (r : LiftReason) : RoomKept s (s.endLift r) := by
  refine (RoomKept.of_view (State.raiseEvent_room _ _)).after (.of_lock rfl rfl fun h => ?_)
  unfold LockSafe at *
  grind

theorem State.runRelock_kept (s : State) : RoomKept s s.runRelock.1 :=
  s.inStay_kept fun _ => .ite_fst (fun _ => s.endLift_kept _) fun _ => .refl s

/-- A guest ceiling at or below the site clamp is set in an open stay (R83, R94). -/
theorem State.setGuestCeiling_kept {s : State} (hy : s.stay.state = .occupied) {c : Nat} (hc : c ≤ s.tariff.siteClamp) :
    RoomKept s (s.setGuestCeiling c).1 := by
  refine .of_lock rfl rfl fun h => ?_
  unfold LockSafe State.setGuestCeiling at *
  grind

theorem State.runSetCeiling_kept (s : State) (c : Byte) (p : PinField) : RoomKept s (s.runSetCeiling c p).1 := by
  have hclamp : ∀ u : State, u.clampCeiling c ≤ u.tariff.siteClamp := fun _ => min_le_right _ _
  exact .ite_fst (fun _ => .refl s) fun _ => s.inStay_kept fun hy =>
    .ite_fst (fun _ => State.setGuestCeiling_kept hy (hclamp s)) fun _ =>
      .ite_fst (fun _ => .refl s) fun _ => State.comparePin_kept hy p fun u hu _ =>
        State.setGuestCeiling_kept (hu ▸ hy) (hclamp u)

theorem State.runChangePin_kept (s : State) (old new : PinField) : RoomKept s (s.runChangePin old new).1 :=
  .ite_fst (fun _ => .refl s) fun _ => s.inStay_kept fun hy => State.comparePin_kept hy old fun u hu _ => by
    refine .of_lock rfl rfl fun h => ?_
    rw [← hu] at hy
    unfold LockSafe at *
    grind

/-- The return to VACANT of a stay with no lift standing (R80, R96, R136). -/
theorem State.becomeVacant_kept {s : State} (hy : s.stay.state = .closing) : RoomKept s s.becomeVacant := by
  refine (RoomKept.of_view (State.raiseEvent_room _ _)).after ⟨fun h => ?_, fun _ => ?_⟩
  · unfold LockSafe at *
    grind
  · exact ⟨by simp, by simp, by simp⟩

theorem State.runAckCharges_kept (s : State) (q : Nat) : RoomKept s (s.runAckCharges q).1 :=
  let released := { s with charges := s.charges.release (s.charges.ackTo q) }
  have hreleased : RoomKept s released := .of_view rfl
  .ite (fun h => (State.becomeVacant_kept (s := released) h.1).after hreleased) fun _ => hreleased

theorem State.runSetCredit_kept (s : State) (w : Word) : RoomKept s (s.runSetCredit w).1 :=
  s.inStay_kept fun hy => .ite_fst (fun _ => .refl s) fun _ => .of_lock rfl rfl fun h => by
    have hcredit : clampCredit w ≤ 1000000 := min_le_right _ _
    unfold LockSafe at *
    grind

theorem State.runBuy_kept (s : State) (n : BitVec 16) : RoomKept s (s.runBuy n).1 := by
  unfold State.runBuy
  split
  · exact .refl s
  · rename_i e he
    obtain ⟨hy, hfound, -⟩ := State.commitCheck_ok he
    obtain ⟨-, rfl⟩ := State.title?_eq_some hfound
    refine State.updateTitle_kept (f := fun x => { x with state := .purchased s.stay.seconds (s.charges.lastIssued + 1) })
      hfound rfl (fun _ => rfl) fun hfit => ?_
    obtain ⟨-, -, -, -, -, -, hused, -⟩ := id hfit
    exact hfit.beyond (by simp [hy]) hused nofun nofun

/-- The tariff a TARIFF command takes is in its ranges (R83, R131). -/
theorem State.runTariff_kept (s : State) (t : BitVec 16) (a b c : Byte) (m : BitVec 16) :
    RoomKept s (s.runTariff t a b c m).1 :=
  .ite_fst (fun _ => .refl s) fun hformat => .ite_fst (fun _ => .refl s) fun hy => .of_lock rfl rfl fun h => by
    have htax : min t.toNat 3000 ≤ 3000 := min_le_right _ _
    have hhouse : min b.toNat a.toNat ≤ a.toNat := min_le_right _ _
    have hlow : 1 ≤ clampMinutes m := le_max_left _ _
    have hhigh : clampMinutes m ≤ 240 := max_le (by decide) (min_le_right _ _)
    unfold LockSafe takenTariff at *
    grind

/-- The opened stay is in its ranges, and every entry on offer has a preview allowance (R69, R134). -/
theorem State.openedStay_kept {s : State} (hy : s.stay.state = .vacant) (number : Word) {c k d : Nat} (pin : List Byte)
    (hc : c ≤ s.tariff.siteClamp) (hk : k ≤ 1000000) (hd : d ≤ 90) : RoomKept s (s.openedStay number c k d pin) := by
  have hentry : ∀ e, exhaustZeroPreview e = e ∨ exhaustZeroPreview e = { e with state := .exhausted } := fun e => by
    unfold exhaustZeroPreview
    split
    · exact .inr rfl
    · exact .inl rfl
  refine ⟨fun h => ?_, fun ⟨hlen, hnodup, hall⟩ => ⟨by simpa [State.openedStay] using hlen, ?_, fun x hx => ?_⟩⟩
  · unfold LockSafe State.openedStay at *
    grind
  · have hnumbers : (s.openedStay number c k d pin).titles.map TitleEntry.number = s.titles.map TitleEntry.number := by
      refine (List.map_map ..).trans (List.map_congr_left fun e _ => ?_)
      rcases hentry e with h | h <;> simp [h]
    rwa [hnumbers]
  · obtain ⟨e, he, rfl⟩ := List.mem_map.mp hx
    obtain ⟨hnumber, hrating, hprice, hmax, hlow, hhigh, hused, hoffered, hpreview, -, hvacant⟩ := hall e he
    have hstate := hvacant hy
    unfold exhaustZeroPreview
    split
    · exact ⟨hnumber, hrating, hprice, hmax, hlow, hhigh, hused, nofun, nofun, nofun, nofun⟩
    · rename_i hlimit
      exact ⟨hnumber, hrating, hprice, hmax, hlow, hhigh, hused, hoffered, hpreview,
        fun _ _ => Nat.one_le_iff_ne_zero.mpr fun h => hlimit ⟨hstate, h⟩, nofun⟩

theorem State.runOpenStay_kept (s : State) (n : Word) (c : Byte) (k : Word) (d : Byte) (p : PinField) :
    RoomKept s (s.runOpenStay n c k d p).1 :=
  .ite_fst (fun _ => .refl s) fun _ => .ite_fst (fun _ => .refl s) fun hy =>
    State.openedStay_kept (Decidable.not_not.mp hy) n _ (min_le_right _ _) (min_le_right _ _) (min_le_right _ _)

/-- A stay that begins to close has no lift standing, and its entries stay as they are (R92, R135). -/
theorem State.beginClose_kept {s : State} (hy : s.stay.state = .occupied) : RoomKept s s.beginClose := by
  have hlift : RoomKept s (if s.liftActive then s.endLift .close else s) := .ite (fun _ => s.endLift_kept _) fun _ => .refl s
  have hlock : (if s.liftActive then s.endLift .close else s).lock.lift = 0 := by
    split
    · simp [State.endLift]
    · simpa [State.liftActive] using ‹¬ s.liftActive = true›
  have hstate : (if s.liftActive then s.endLift .close else s).stay.state = .occupied := by
    split
    · simpa [State.endLift] using hy
    · exact hy
  refine hlift.trans ⟨fun h => ?_, fun ⟨hlen, hnodup, hall⟩ => ⟨hlen, hnodup, fun e he => ?_⟩⟩
  · unfold LockSafe State.beginClose at *
    grind
  · obtain ⟨hnumber, hrating, hprice, hmax, hlow, hhigh, hused, hoffered, hpreview, hallowance, -⟩ := hall e he
    exact ⟨hnumber, hrating, hprice, hmax, hlow, hhigh, hused, hoffered, hpreview, fun ho _ => hallowance ho (by simp [hstate]),
      nofun⟩

theorem State.runCloseStay_kept (s : State) : RoomKept s s.runCloseStay.1 := by
  unfold State.runCloseStay
  split
  · exact .refl s
  · exact .refl s
  · exact State.beginClose_kept ‹_›

theorem State.runQueryTitle_kept (s : State) (n : BitVec 16) : RoomKept s (s.runQueryTitle n).1 := by
  unfold State.runQueryTitle
  split
  · exact .refl s
  · exact .ite_fst (fun _ => .refl s) fun _ => .refl s

/-! ## Restarts, retention and power-on -/

/-- The state after a COLD restart's defaults is in every range (R98, R130, R141). -/
theorem State.coldDefaults_safe (s : State) : LockSafe s.coldDefaults ∧ TitleSafe s.coldDefaults := by
  refine ⟨?_, by simp [State.coldDefaults], by simp [State.coldDefaults], by simp [State.coldDefaults]⟩
  simp [LockSafe, State.coldDefaults, Lock.cold, Stay.cold, Tariff.cold]

theorem State.restart_cold_safe (s : State) : LockSafe (s.restart .cold) ∧ TitleSafe (s.restart .cold) :=
  State.coldDefaults_safe (s.warmRestart .cold)

/-- Every restart ends the lift and drops the entries on offer, or puts every item at its cold default (R81, R98, R161). -/
theorem State.restart_kept (s : State) (cause : Cause) : RoomKept s (s.restart cause) := by
  rcases s.restart_cases cause with ⟨-, e⟩ | ⟨-, e⟩ <;> rw [e]
  · exact ⟨fun _ => (State.coldDefaults_safe _).1, fun _ => (State.coldDefaults_safe _).2⟩
  · refine ⟨fun h => ?_, TitleSafe.kept rfl rfl⟩
    unfold LockSafe State.warmRestart State.clearVolatile at *
    grind

theorem State.enterRetainStep_kept (s : State) (ws : List WriteWord) : RoomKept s (s.enterRetainStep ws) := by
  rw [s.enterRetainStep_eq ws]
  exact ⟨LockSafe.congr rfl rfl rfl, TitleSafe.kept rfl rfl⟩

theorem State.powerOnStep_kept (s : State) : RoomKept s s.powerOnStep := ⟨LockSafe.congr rfl rfl rfl, TitleSafe.kept rfl rfl⟩

theorem State.enterRunStep_kept (s : State) (cs : List (BitVec 26 × Byte)) : RoomKept s (s.enterRunStep cs) :=
  (s.restart_kept _).trans (.of_view rfl)

theorem State.recoverStep_room (s : State) : s.recoverStep.roomView = s.roomView := rfl

theorem State.relapseStep_room (s : State) : s.relapseStep.roomView = s.roomView := rfl

theorem State.sampleStep_kept (s : State) (x : Sample) : RoomKept s (s.sampleStep x) := by
  unfold State.sampleStep
  split
  · cases x with
    | low => exact .ite (fun _ => s.enterRetainStep_kept []) fun _ => .of_view rfl
    | between => exact .of_view rfl
    | good => exact .of_view rfl
  · exact .ite (fun _ => .of_view rfl) fun _ => .refl s
  · cases x with
    | low => exact .of_view rfl
    | between => exact .of_view rfl
    | good => exact .ite (fun _ => s.enterRunStep_kept []) fun _ => .of_view rfl

theorem State.assertStep_kept {s t : State} {ws : List WriteWord} (h : s.assertStep ws = some t) : RoomKept s t := by
  unfold State.assertStep at h
  split at h
  · contradiction
  · split at h
    · exact Option.some.inj h ▸ .of_view (PortMove.lineHolds s ws).room
    · exact Option.some.inj h ▸ .of_view rfl

theorem State.releaseStep_kept {s t : State} (h : s.releaseStep = some t) : RoomKept s t := by
  unfold State.releaseStep at h
  split at h
  · contradiction
  · split at h
    · exact Option.some.inj h ▸ (s.restart_kept .line).trans (.of_view rfl)
    · exact Option.some.inj h ▸ .of_view rfl

/-! ## Every event but a decay keeps the ranges -/

theorem perform_kept {f : State → Option State} {s t : State} (hf : ∀ u v, f u = some v → RoomKept u v)
    (h : perform f s = .next t) : RoomKept s t := by
  injection h with h
  subst h
  exact (RoomKept.getD (hf _)).after s.settle_kept

theorem performInTick_kept {f : State → Option State} {s t : State} (hf : ∀ u v, f u = some v → RoomKept u v)
    (h : performInTick f s = .next t) : RoomKept s t := by
  injection h with h
  exact h ▸ RoomKept.getD (hf s)

/-- An event whose work the room's view does not show. -/
theorem perform_kept_of_view {f : State → Option State} {s t : State} (hf : ∀ u v, f u = some v → v.roomView = u.roomView)
    (h : perform f s = .next t) : RoomKept s t := perform_kept (fun u v hv => .of_view (hf u v hv)) h

/-- An event taken under a condition keeps the ranges if it does where it is taken. -/
theorem RoomKept.of_guarded {p : Prop} [Decidable p] {s t u : State} (hk : RoomKept s u)
    (h : (if p then some u else none) = some t) : RoomKept s t := by
  split at h
  · exact Option.some.inj h ▸ hk
  · contradiction

/-- A command of the command ring keeps the ranges if its owner does. -/
theorem execCommand_kept {c : Instr} {tag : Word} {code : Byte} {run : State → State × Answer} {s t : State}
    (h : execCommand c tag code run s = .next t) (hr : ∀ u, RoomKept u (run u).1) : RoomKept s t :=
  perform_kept (fun u _ hv => RoomKept.of_guarded ((RoomKept.of_view (State.finishFetch_room _ _ _ _)).after (hr u)) hv) h

theorem execMediaCommandPhase_kept {dir : Direction} {addr : Word} {count : Nat} {s t : State}
    (h : execMediaCommandPhase dir addr count s = .next t) : RoomKept s t := by
  unfold execMediaCommandPhase at h
  split at h
  · contradiction
  · split at h
    · contradiction
    · exact perform_kept_of_view (fun _ _ hv => (PortMove.commandPhase hv).room) h

theorem execRestart_kept {tag : Word} {s t : State} (h : execRestart tag s = .next t) : RoomKept s t :=
  perform_kept (fun u _ => RoomKept.of_guarded ((RoomKept.of_view (State.handOver_room _)).after (u.restart_kept .command))) h

/-- Every event but a decay of the retained store keeps the lock, the stay, the tariff and the title table in their ranges. -/
theorem exec_roomKept {i : Instr} (hi : i ≠ .retainedStoreDecay) {s t : State} (h : exec i s = .next t) : RoomKept s t := by
  cases i with
  | mediaCommandPhase dir addr count => exact execMediaCommandPhase_kept h
  | mediaTransactionComplete words => exact perform_kept_of_view (fun _ _ hv => (PortMove.complete hv).room) h
  | mediaResume => exact perform_kept_of_view (fun _ _ hv => (PortMove.resume hv).room) h
  | anchorWrite w =>
    exact perform_kept_of_view (fun _ _ hv => State.anchorStep_room (fun u a => u.latchBase_room w a) hv) h
  | commandRingSlots w =>
    exact perform_kept_of_view (fun _ _ hv => State.anchorStep_room (fun u _ => u.writeCommandSlots_room w) hv) h
  | reportRingSlots w =>
    exact perform_kept_of_view (fun _ _ hv => State.anchorStep_room (fun u _ => u.writeReportSlots_room w) hv) h
  | commandTail w =>
    exact perform_kept_of_view (fun _ _ hv => State.anchorStep_room (fun u _ => u.writeCommandTail_room w) hv) h
  | reportTail w =>
    exact perform_kept_of_view (fun _ _ hv => State.anchorStep_room (fun u _ => (PortMove.reportTail u w).room) hv) h
  | headerWrite w => exact perform_kept (fun _ _ => State.laneWriteStep_kept fun u n a => u.takeHeader_kept n a w) h
  | payloadWrite w => exact perform_kept (fun _ _ => State.laneWriteStep_kept fun u n a => u.takePayload_kept n a w) h
  | laneReadWord => exact perform_kept (fun _ _ => State.laneReadStep_kept) h
  | commandFetchRequest => exact perform_kept_of_view (fun _ _ hv => (PortMove.beginFetch hv).room) h
  | siteKey tag key => exact execCommand_kept ((exec_siteKey ..).symm.trans h) fun _ => .of_view rfl
  | tariff tag a b c d e => exact execCommand_kept ((exec_tariff ..).symm.trans h) fun u => u.runTariff_kept a b c d e
  | openStay tag n c k d p => exact execCommand_kept ((exec_openStay ..).symm.trans h) fun u => u.runOpenStay_kept n c k d p
  | closeStay tag => exact execCommand_kept ((exec_closeStay ..).symm.trans h) State.runCloseStay_kept
  | stayQuery tag => exact execCommand_kept ((exec_stayQuery ..).symm.trans h) RoomKept.refl
  | ackCharges tag q => exact execCommand_kept ((exec_ackCharges ..).symm.trans h) fun u => u.runAckCharges_kept _
  | logRegion tag base slots =>
    exact execCommand_kept ((exec_logRegion ..).symm.trans h) fun u => .of_view (u.runLogRegion_room _ _)
  | setCredit tag limit => exact execCommand_kept ((exec_setCredit ..).symm.trans h) fun u => u.runSetCredit_kept limit
  | buy tag title => exact execCommand_kept ((exec_buy ..).symm.trans h) fun u => u.runBuy_kept title
  | bind tag lane role service base slots =>
    exact execCommand_kept ((exec_bind ..).symm.trans h) fun u => .of_view (u.runBind_room _ _ _ _ _)
  | unbind tag lane => exact execCommand_kept ((exec_unbind ..).symm.trans h) fun u => .of_view (u.runUnbind_room lane)
  | unlock tag pin => exact execCommand_kept ((exec_unlock ..).symm.trans h) fun u => u.runUnlock_kept pin
  | relock tag => exact execCommand_kept ((exec_relock ..).symm.trans h) State.runRelock_kept
  | setCeiling tag c pin => exact execCommand_kept ((exec_setCeiling ..).symm.trans h) fun u => u.runSetCeiling_kept c pin
  | changePin tag old new => exact execCommand_kept ((exec_changePin ..).symm.trans h) fun u => u.runChangePin_kept old new
  | queryTitle tag title => exact execCommand_kept ((exec_queryTitle ..).symm.trans h) fun u => u.runQueryTitle_kept title
  | restart tag => exact execRestart_kept h
  | unknown tag code => exact execCommand_kept ((exec_unknown ..).symm.trans h) RoomKept.refl
  | reportTake => exact perform_kept_of_view (fun _ _ hv => (PortMove.takeReport hv).room) h
  | reportWriteComplete => exact perform_kept_of_view (fun _ _ hv => (PortMove.completeReport hv).room) h
  | logWriteBegin => exact perform_kept_of_view (fun _ _ hv => (PortMove.beginLog hv).room) h
  | logWriteComplete => exact perform_kept_of_view (fun _ _ hv => (PortMove.completeLog hv).room) h
  | secondsTick => exact perform_kept (fun u _ => RoomKept.of_guarded u.secondsTickStep_kept) h
  | previewEnd => exact performInTick_kept (fun _ _ => State.previewEndStep_kept) h
  | rentalLapsed => exact performInTick_kept (fun _ _ => State.rentalLapsedStep_kept) h
  | liftExpired => exact performInTick_kept (fun _ _ => State.liftExpiredStep_kept) h
  | lockoutEnded => exact performInTick_kept (fun _ _ => State.lockoutEndedStep_kept) h
  | enterRetain passed => exact perform_kept (fun u _ => RoomKept.of_guarded (u.enterRetainStep_kept passed)) h
  | supplyRecover => exact perform_kept (fun u _ => RoomKept.of_guarded (.of_view u.recoverStep_room)) h
  | supplyRelapse => exact perform_kept (fun u _ => RoomKept.of_guarded (.of_view u.relapseStep_room)) h
  | enterRun changed => exact perform_kept (fun u _ => RoomKept.of_guarded (u.enterRunStep_kept changed)) h
  | powerOn => exact perform_kept (fun u _ hv => Option.some.inj hv ▸ u.powerOnStep_kept) h
  | resetAssert passed => exact perform_kept (fun _ _ => State.assertStep_kept) h
  | resetRelease => exact perform_kept (fun _ _ => State.releaseStep_kept) h
  | supplySample v => exact perform_kept (fun u _ hv => Option.some.inj hv ▸ u.sampleStep_kept _) h
  | houseAccessDiscarded => exact perform_kept_of_view (fun _ _ hv => (PortMove.discard hv).room) h
  | retainedStoreDecay => exact absurd rfl hi

end Sys2Proof.Machine
end

section
namespace Sys2Proof.Machine

/-! ## Outside RUN the retained store stands sealed (R154, R155, R156) -/

/-- A meter with nothing outstanding stays as it is. -/
theorem State.runMeter_of_nil {s : State} (h : s.tick.meter = []) : s.runMeter = s := by
  unfold State.runMeter
  rw [h]
  show { s with tick := { s.tick with meter := [] } } = s
  rw [← h]

/-- A meter with nothing outstanding takes no step. -/
theorem State.meterStep_of_nil {s : State} (acts : State → TitleEntry → Bool) (act : State → TitleEntry → State)
    (h : s.runMeter.tick.meter = []) : s.meterStep acts act = none := by
  simp [State.meterStep, State.meterAt, h]

/-- With no tick in progress a row of the tick changes nothing (log entry 5). -/
theorem exec_tickRow_of_none {s : State} (h : s.tick = TickWork.none) :
    exec .previewEnd s = .next s ∧ exec .rentalLapsed s = .next s ∧ exec .liftExpired s = .next s ∧
      exec .lockoutEnded s = .next s := by
  have hrun : s.runMeter.tick.meter = [] := by rw [State.runMeter_of_nil (by rw [h]; rfl), h]; rfl
  have huntaken : ∀ f : State → Option State, f s = none → performInTick f s = .next s := fun f hf => by
    rw [performInTick, hf, Option.getD_none]
  exact ⟨huntaken _ (State.meterStep_of_nil _ _ hrun), huntaken _ (State.meterStep_of_nil _ _ hrun),
    huntaken State.liftExpiredStep (if_neg (by simp [h, TickWork.none])),
    huntaken State.lockoutEndedStep (if_neg (by simp [h, TickWork.none]))⟩

/-- Whether the part is in RUN rests on its supply state alone. -/
theorem State.inRun_congr {s t : State} (h : t.supply = s.supply) : t.inRun = s.inRun := by
  rw [State.inRun, h, ← State.inRun]

/-- The part stays outside RUN with its retained store as it was, and its check word stands or is gone (R155, R156). -/
structure Sealed (s t : State) : Prop where
  outside : t.inRun = false
  retained : t.retained = s.retained
  checkWord : t.checkWord = s.checkWord ∨ t.checkWord = none

/-- What leaves the supply state, the check word and the retained items leaves the store sealed. -/
theorem Sealed.of_eq {s t : State} (hrun : s.inRun = false) (hsupply : t.supply = s.supply) (hstore : t.retained = s.retained)
    (hcheck : t.checkWord = s.checkWord) : Sealed s t :=
  ⟨(State.inRun_congr hsupply).trans hrun, hstore, .inl hcheck⟩

theorem Sealed.refl {s : State} (hrun : s.inRun = false) : Sealed s s := .of_eq hrun rfl rfl rfl

theorem State.powerOnStep_sealed (s : State) : Sealed s s.powerOnStep := by
  refine ⟨rfl, ?_, .inr rfl⟩
  simp [State.retained, State.powerOnStep, State.clearVolatile, ChargeUnit.volatileCleared, keptTitles_keptTitles,
    Function.comp_def]

theorem State.recoverStep_sealed (s : State) : Sealed s s.recoverStep := ⟨rfl, rfl, .inl rfl⟩

theorem State.relapseStep_sealed (s : State) : Sealed s s.relapseStep := ⟨rfl, rfl, .inl rfl⟩

/-- The reset line asserted or released outside RUN moves nothing else (R159). -/
theorem State.assertStep_sealed {s t : State} {ws : List WriteWord} (hrun : s.inRun = false) (h : s.assertStep ws = some t) :
    Sealed s t := by
  cases hline : s.resetLine with
  | true => simp [State.assertStep, hline] at h
  | false =>
    obtain rfl := Option.some.inj ((s.assertStep_off ws hline hrun).symm.trans h)
    exact .of_eq hrun rfl rfl rfl

theorem State.releaseStep_sealed {s t : State} (hrun : s.inRun = false) (h : s.releaseStep = some t) : Sealed s t := by
  cases hline : s.resetLine with
  | false => simp [State.releaseStep, hline] at h
  | true =>
    obtain rfl := Option.some.inj ((State.releaseStep_off hline hrun).symm.trans h)
    exact .of_eq hrun rfl rfl rfl

/-- What an event other than a decay can do outside RUN: it leaves the retained store sealed, or it enters RUN (R155, R156). -/
def OutsideRun (s t : State) : Prop := Sealed s t ∨ ∃ changed, t = s.enterRunStep changed

/-- A sample outside RUN leaves the store sealed, but for the one that completes the good count (R155). -/
theorem State.sampleStep_outside {s : State} (hrun : s.inRun = false) (x : Sample) :
    OutsideRun s (s.sampleStep x) := by
  have hsupply : ∀ y, ({ s with supply := y } : State).inRun = false → Sealed s { s with supply := y } :=
    fun _ h => ⟨h, rfl, .inl rfl⟩
  unfold State.sampleStep
  split
  · rename_i hs
    simp [State.inRun, hs] at hrun
  · split
    · exact .inl (hsupply _ rfl)
    · exact .inl (.refl hrun)
  · cases x with
    | low => exact .inl (hsupply _ rfl)
    | between => exact .inl (hsupply _ rfl)
    | good =>
      simp only [State.sampleRecover]
      split
      · exact .inr ⟨[], rfl⟩
      · exact .inl (hsupply _ rfl)

theorem OutsideRun.of_guarded {p : Prop} [Decidable p] {s t u : State} (hk : OutsideRun s u)
    (h : (if p then some u else none) = some t) : OutsideRun s t := by
  split at h
  · exact Option.some.inj h ▸ hk
  · contradiction

theorem perform_outside {f : State → Option State} {s t : State} (htick : s.tick = TickWork.none) (hrun : s.inRun = false)
    (hf : ∀ u v, u.inRun = false → f u = some v → OutsideRun u v) (h : perform f s = .next t) : OutsideRun s t := by
  rw [perform_of_none f s htick] at h
  obtain rfl := Host.Outcome.next.inj h
  cases hv : f s with
  | none => exact .inl (.refl hrun)
  | some v => exact hf s v hrun hv

theorem execMediaCommandPhase_outside {dir : Direction} {addr : Word} {count : Nat} {s t : State}
    (htick : s.tick = TickWork.none) (hrun : s.inRun = false) (h : execMediaCommandPhase dir addr count s = .next t) :
    OutsideRun s t := by
  unfold execMediaCommandPhase at h
  split at h
  · contradiction
  · split at h
    · contradiction
    · refine perform_outside htick hrun (fun u v hu hv => ?_) h
      rw [State.takeCommandPhase_of_held _ _ _ (State.working_eq_false (.inl hu))] at hv
      contradiction

/-- What an event other than a decay does outside RUN, row by row. -/
theorem exec_outside_run {i : Instr} (hi : i ≠ .retainedStoreDecay) {s t : State} (htick : s.tick = TickWork.none)
    (hrun : s.inRun = false) (h : exec i s = .next t) : OutsideRun s t := by
  have hheld : s.working = false := State.working_eq_false (.inl hrun)
  have hstands : exec i s = .next s → OutsideRun s t := fun hs => by
    obtain rfl := Host.Outcome.next.inj (hs.symm.trans h)
    exact .inl (.refl hrun)
  have hevent := fun (words : List WriteWord) (w : WriteWord) => exec_event_of_held words w htick hheld
  obtain ⟨hpreview, hrental, hlift, hlockout⟩ := exec_tickRow_of_none htick
  by_cases hrecord : (recordFields i).isSome = true
  · exact hstands (exec_record_of_unready htick hrecord (s.fetchReady_of_held i hheld))
  cases i with
  | mediaCommandPhase dir addr count => exact execMediaCommandPhase_outside htick hrun h
  | mediaTransactionComplete words => exact hstands (hevent words ⟨0, 0⟩ _ (by simp))
  | mediaResume => exact hstands (hevent [] ⟨0, 0⟩ _ (by simp))
  | anchorWrite w => exact hstands (hevent [] w _ (by simp))
  | commandRingSlots w => exact hstands (hevent [] w _ (by simp))
  | reportRingSlots w => exact hstands (hevent [] w _ (by simp))
  | commandTail w => exact hstands (hevent [] w _ (by simp))
  | reportTail w => exact hstands (hevent [] w _ (by simp))
  | headerWrite w => exact hstands (hevent [] w _ (by simp))
  | payloadWrite w => exact hstands (hevent [] w _ (by simp))
  | laneReadWord => exact hstands (hevent [] ⟨0, 0⟩ _ (by simp))
  | commandFetchRequest => exact hstands (hevent [] ⟨0, 0⟩ _ (by simp))
  | reportTake => exact hstands (hevent [] ⟨0, 0⟩ _ (by simp))
  | reportWriteComplete => exact hstands (hevent [] ⟨0, 0⟩ _ (by simp))
  | logWriteBegin => exact hstands (hevent [] ⟨0, 0⟩ _ (by simp))
  | logWriteComplete => exact hstands (hevent [] ⟨0, 0⟩ _ (by simp))
  | secondsTick => exact hstands (hevent [] ⟨0, 0⟩ _ (by simp))
  | previewEnd => exact hstands hpreview
  | rentalLapsed => exact hstands hrental
  | liftExpired => exact hstands hlift
  | lockoutEnded => exact hstands hlockout
  | enterRetain passed =>
    have hlow : s.supply ≠ .run 31 := fun hs => by simp [State.inRun, hs] at hrun
    exact hstands (perform_of_untaken (fun s => if s.supply = .run 31 then some (s.enterRetainStep passed) else none) s htick
      (if_neg hlow))
  | supplyRecover => exact perform_outside htick hrun (fun u _ _ => .of_guarded (.inl u.recoverStep_sealed)) h
  | supplyRelapse => exact perform_outside htick hrun (fun u _ _ => .of_guarded (.inl u.relapseStep_sealed)) h
  | enterRun changed => exact perform_outside htick hrun (fun _ _ _ => .of_guarded (.inr ⟨changed, rfl⟩)) h
  | powerOn => exact perform_outside htick hrun (fun u _ _ hv => Option.some.inj hv ▸ .inl u.powerOnStep_sealed) h
  | resetAssert passed => exact perform_outside htick hrun (fun _ _ hu hv => .inl (State.assertStep_sealed hu hv)) h
  | resetRelease => exact perform_outside htick hrun (fun _ _ hu hv => .inl (State.releaseStep_sealed hu hv)) h
  | supplySample v =>
    exact perform_outside htick hrun (fun _ _ hu hv => Option.some.inj hv ▸ State.sampleStep_outside hu _) h
  | houseAccessDiscarded => exact hstands (perform_of_untaken State.discardHouse s htick (State.discardHouse_of_held hrun))
  | retainedStoreDecay => exact absurd rfl hi
  | _ => exact absurd rfl hrecord

/-- A part outside RUN whose check word disagrees with its retained items does not stand by them. -/
theorem State.not_trusts_of_sealed {s t : State} (h : Sealed s t) (hcheck : s.checkHolds = false) : ¬ t.trusts := by
  rintro (hrun | hholds)
  · exact Bool.noConfusion (h.outside.symm.trans hrun)
  · have hword : t.checkWord = some s.computeCheck :=
      (of_decide_eq_true hholds).trans (by rw [State.computeCheck_congr h.retained])
    rcases h.checkWord with hw | hw
    · rw [State.checkHolds, ← hw, hword, decide_eq_true rfl] at hcheck
      contradiction
    · rw [hword] at hw
      contradiction

theorem State.tick_of_supplySafe {s : State} (h : SupplySafe s) (hrun : s.inRun = false) : s.tick = TickWork.none := by
  unfold SupplySafe at h
  unfold State.inRun at hrun
  cases hs : s.supply with
  | run low => simp [hs] at hrun
  | retain =>
    rw [hs] at h
    exact h.1
  | recover good =>
    rw [hs] at h
    exact h.2.1

end Sys2Proof.Machine
end

section
namespace Sys2Proof.Machine

/-! ## What the completion of a tick leaves (R71 to R75, R88, R91) -/

/-- The owners' work at a tick changes nothing but the title table, the charge unit, the lock unit, the pending queue, the tick's
own work and the count of free draws. -/
structure TickWorkOnly (s t : State) : Prop where
  eq : t = { s with
    titles := t.titles, charges := t.charges, lock := t.lock, reports := t.reports, overflow := t.overflow, tick := t.tick
    freeDraws := t.freeDraws }

theorem TickWorkOnly.refl (s : State) : TickWorkOnly s s := ⟨rfl⟩

theorem TickWorkOnly.trans {s t u : State} (h : TickWorkOnly s t) (k : TickWorkOnly t u) : TickWorkOnly s u :=
  ⟨k.eq.trans (congrArg (fun x : State => { x with
    titles := u.titles, charges := u.charges, lock := u.lock, reports := u.reports, overflow := u.overflow, tick := u.tick
    freeDraws := u.freeDraws }) h.eq)⟩

theorem TickWorkOnly.ite {p : Prop} [Decidable p] {s t u : State} (h : p → TickWorkOnly s t) (k : ¬ p → TickWorkOnly s u) :
    TickWorkOnly s (if p then t else u) := by
  split
  · exact h ‹_›
  · exact k ‹_›

theorem TickWorkOnly.getD {s : State} {o : Option State} (h : ∀ t, o = some t → TickWorkOnly s t) :
    TickWorkOnly s (o.getD s) := by
  cases o with
  | none => exact .refl s
  | some t => exact h t rfl

theorem State.raiseEvent_workOnly (s : State) (e : Event) : TickWorkOnly s (s.raiseEvent e) := by
  rw [State.raiseEvent, State.hand_eq]
  exact ⟨rfl⟩

theorem State.countPreview_workOnly (s : State) (e : TitleEntry) : TickWorkOnly s (s.countPreview e) :=
  have hcounted : TickWorkOnly s (s.updateTitle e.number TitleEntry.counted) := ⟨rfl⟩
  .ite (fun _ => hcounted.trans (State.raiseEvent_workOnly _ _)) fun _ => hcounted

theorem State.exhaust_workOnly (s : State) (n : BitVec 16) (r : PreviewReason) : TickWorkOnly s (s.exhaust n r) :=
  TickWorkOnly.trans (t := s.updateTitle n _) ⟨rfl⟩ (State.raiseEvent_workOnly _ _)

theorem State.endPreview_workOnly (s : State) (e : TitleEntry) : TickWorkOnly s (s.endPreview e) := by
  unfold State.endPreview
  refine .ite (fun _ => ?_) fun _ => s.exhaust_workOnly _ _
  split
  · exact TickWorkOnly.trans (t := s.makeCommit _ _) ⟨rfl⟩ (State.raiseEvent_workOnly _ _)
  · exact s.exhaust_workOnly _ _

theorem State.lapse_workOnly (s : State) (e : TitleEntry) : TickWorkOnly s (s.lapse e) :=
  TickWorkOnly.trans (t := s.updateTitle e.number _) ⟨rfl⟩ (State.raiseEvent_workOnly _ _)

theorem State.meterEntry_workOnly (s : State) (e : TitleEntry) : TickWorkOnly s (s.meterEntry e) :=
  (TickWorkOnly.ite (fun _ => s.countPreview_workOnly e) fun _ => .refl s).trans ⟨rfl⟩

theorem State.meterRun_workOnly (ts : List (BitVec 16)) : ∀ s : State, TickWorkOnly s (State.meterRun ts s) := by
  induction ts with
  | nil => exact fun _ => ⟨rfl⟩
  | cons t rest ih =>
    intro s
    simp only [State.meterRun]
    split
    · exact ih s
    · exact .ite (fun _ => ⟨rfl⟩) fun _ => (s.meterEntry_workOnly _).trans (ih _)

theorem State.runMeter_workOnly (s : State) : TickWorkOnly s s.runMeter := State.meterRun_workOnly _ s

theorem State.meterStep_workOnly {s t : State} {acts : State → TitleEntry → Bool} {act : State → TitleEntry → State}
    (hact : ∀ r e, TickWorkOnly r (act r e)) (h : s.meterStep acts act = some t) : TickWorkOnly s t := by
  obtain ⟨-, rest, e, -, -, -, rfl⟩ := State.meterStep_cases h
  have hcleared : TickWorkOnly (act s.runMeter e) ((act s.runMeter e).clearSeen e.number) := ⟨rfl⟩
  exact ((s.runMeter_workOnly.trans (hact _ e)).trans hcleared).trans (State.meterRun_workOnly rest _)

theorem State.previewEndStep_workOnly {s t : State} (h : s.previewEndStep = some t) : TickWorkOnly s t :=
  State.meterStep_workOnly (fun r e => (r.countPreview_workOnly e).trans (State.endPreview_workOnly _ e)) h

theorem State.rentalLapsedStep_workOnly {s t : State} (h : s.rentalLapsedStep = some t) : TickWorkOnly s t :=
  State.meterStep_workOnly State.lapse_workOnly h

theorem State.liftExpiredStep_workOnly {s t : State} (h : s.liftExpiredStep = some t) : TickWorkOnly s t := by
  unfold State.liftExpiredStep at h
  split at h
  · exact Option.some.inj h ▸ TickWorkOnly.trans ⟨rfl⟩ (State.raiseEvent_workOnly _ _)
  · contradiction

theorem State.lockoutEndedStep_workOnly {s t : State} (h : s.lockoutEndedStep = some t) : TickWorkOnly s t := by
  unfold State.lockoutEndedStep at h
  split at h
  · exact Option.some.inj h ▸ TickWorkOnly.trans ⟨rfl⟩ (State.raiseEvent_workOnly _ _)
  · contradiction

theorem State.finishMeter_workOnly (n : Nat) : ∀ s : State, TickWorkOnly s (s.finishMeter n) := by
  induction n with
  | zero => exact fun _ => ⟨rfl⟩
  | succ n ih =>
    intro s
    simp only [State.finishMeter]
    split
    · exact (State.previewEndStep_workOnly ‹_›).trans (ih _)
    · split
      · exact (State.rentalLapsedStep_workOnly ‹_›).trans (ih _)
      · exact ⟨rfl⟩

theorem State.settleMeter_workOnly (s : State) : TickWorkOnly s s.settleMeter :=
  s.runMeter_workOnly.trans (State.finishMeter_workOnly _ _)

theorem State.settleLift_workOnly (s : State) : TickWorkOnly s s.settleLift := .getD fun _ => State.liftExpiredStep_workOnly

theorem State.settleLockout_workOnly (s : State) : TickWorkOnly s s.settleLockout :=
  .getD fun _ => State.lockoutEndedStep_workOnly

theorem State.settleIn_workOnly (s : State) (o : TickOrder) : TickWorkOnly s (s.settleIn o) := by
  have hmeter := State.settleMeter_workOnly
  have hlift := State.settleLift_workOnly
  have hlockout := State.settleLockout_workOnly
  cases o with
  | meterLiftLockout => exact ((hmeter _).trans (hlift _)).trans (hlockout _)
  | meterLockoutLift => exact ((hmeter _).trans (hlockout _)).trans (hlift _)
  | liftMeterLockout => exact ((hlift _).trans (hmeter _)).trans (hlockout _)
  | liftLockoutMeter => exact ((hlift _).trans (hlockout _)).trans (hmeter _)
  | lockoutMeterLift => exact ((hlockout _).trans (hmeter _)).trans (hlift _)
  | lockoutLiftMeter => exact ((hlockout _).trans (hlift _)).trans (hmeter _)

theorem State.settle_workOnly (s : State) : TickWorkOnly s s.settle :=
  .ite (fun _ => .refl s) fun _ => TickWorkOnly.trans ⟨rfl⟩ (State.settleIn_workOnly _ _)

/-- The completion of a tick keeps the supply state. -/
@[simp] theorem State.settle_supply (s : State) : s.settle.supply = s.supply := (congrArg State.supply s.settle_workOnly.eq).trans rfl

/-! ## The retained items where the part stands by them -/

theorem State.decay_pending (s : State) (left : Retained) (queue : List Instr) :
    ({ s with pending := queue } : State).decay left = { s.decay left with pending := queue } := by
  unfold State.decay
  split <;> rfl

/-- Contents left by a decay that are those before leave the store's items as they were, less the OFFERED entries and the seen
flags (R157). -/
theorem State.decay_kept {s : State} {left : Retained} (h : (s.decay left).retained = s.retained) : RoomKept s (s.decay left) := by
  refine ⟨LockSafe.congr (congrArg Retained.lock h) (congrArg Retained.stay h) (congrArg Retained.tariff h), ?_⟩
  rcases s.decay_cases left with ⟨-, e⟩ | ⟨-, e⟩
  · have htitles : (s.decay left).titles = keptTitles s.titles := by
      have hkept : keptTitles (s.holding left).titles = (s.holding left).titles := keptTitles_keptTitles _
      rw [e, ← hkept, ← e]
      exact congrArg Retained.titles h
    exact TitleSafe.kept htitles (congrArg (Stay.state ∘ Retained.stay) h)
  · rw [e]
    exact id

/-- A decay in RUN, where the retained store is fed, changes nothing but to complete a tick (R157; log entry 5). -/
theorem exec_decay_of_run {s : State} (hrun : s.inRun = true) : exec .retainedStoreDecay s = .next s.settle := by
  have hfed : s.settle.decayStep = none := if_pos ((State.inRun_congr s.settle_supply).trans hrun)
  show Host.Outcome.next (s.settle.decayStep.getD s.settle) = _
  rw [hfed, Option.getD_none]

/-- A decay outside RUN leaves contents that are a free value (R157; log entry 11). -/
theorem exec_decay_outside {s : State} (htick : s.tick = TickWork.none) (hrun : s.inRun = false) :
    exec .retainedStoreDecay s =
      .next { s.decay (Config.decayedStore s.freeDraws) with freeDraws := s.freeDraws + 1 } := by
  have hdecayed : s.decayStep = some { s.decay (Config.decayedStore s.freeDraws) with freeDraws := s.freeDraws + 1 } :=
    if_neg (Bool.eq_false_iff.mp hrun)
  exact (perform_of_none State.decayStep s htick).trans (by rw [hdecayed, Option.getD_some])

/-- A property of the retained items is kept where the part stands by them, once every event but a decay keeps it, a COLD restart
brings it about, and contents equal to those before keep it (R155, R156, R157). -/
theorem keptWhereTrusted_of {safe : State → Prop} 
    (hqueue : ∀ {s} queue draws, safe s → safe { s with pending := queue, freeDraws := draws })
    (hclock : ∀ {s}, safe s → safe (clockPeriod s)) (hsettle : ∀ {s}, safe s → safe s.settle)
    (hexec : ∀ {i s t}, i ≠ .retainedStoreDecay → exec i s = .next t → safe s → safe t)
    (hcold : ∀ {s : State} (changed), s.checkHolds = false → safe (s.enterRunStep changed))
    (hdecay : ∀ {s : State} {left : Retained}, (s.decay left).retained = s.retained → safe s → safe (s.decay left)) :
    KeptWhereTrusted safe := by
  intro s t hsupply hcaught hsafe hstep htrusts
  have hdistrusted : ¬ s.trusts → s.inRun = false ∧ s.checkHolds = false := fun h =>
    ⟨Bool.eq_false_iff.mpr fun hr => h (.inl hr), Bool.eq_false_iff.mpr fun hc => h (.inr hc)⟩
  unfold step at hstep
  split at hstep
  · obtain rfl := Host.Outcome.next.inj hstep
    by_cases ht : s.trusts
    · exact hclock (hsafe ht)
    · obtain ⟨hrun, -⟩ := hdistrusted ht
      have hidle : clockPeriod s = s := by
        simp [clockPeriod, State.settle_of_none s (State.tick_of_supplySafe hsupply hrun), State.working, hrun]
      exact absurd (hidle ▸ htrusts) ht
  · rename_i i rest hfront
    have hpending : s.trusts → safe { s with pending := rest } := fun ht => hqueue rest s.freeDraws (hsafe ht)
    by_cases hi : i = .retainedStoreDecay
    · subst hi
      cases hrun : s.inRun with
      | true =>
        obtain rfl := Host.Outcome.next.inj ((exec_decay_of_run (s := { s with pending := rest }) hrun).symm.trans hstep)
        exact hsettle (hpending (.inl hrun))
      | false =>
        have hstays : (s.decay (Config.decayedStore s.freeDraws)).inRun = false :=
          (State.inRun_congr (s.decay_keeps _).2.1).trans hrun
        have hdecayed : t =
            { s.decay (Config.decayedStore s.freeDraws) with freeDraws := s.freeDraws + 1, pending := rest } := by
          have hexec := exec_decay_outside (s := { s with pending := rest }) (State.tick_of_supplySafe hsupply hrun) hrun
          rw [State.decay_pending] at hexec
          exact (Host.Outcome.next.inj (hexec.symm.trans hstep)).symm
        have hholds : (s.decay (Config.decayedStore s.freeDraws)).checkHolds = true := by
          rw [hdecayed] at htrusts
          exact htrusts.resolve_left fun h => Bool.noConfusion (hstays.symm.trans h)
        have hretained := hcaught rest hfront hholds
        have hcheck : s.checkHolds = true := by
          rwa [State.checkHolds, (s.decay_keeps _).1, State.computeCheck_congr hretained] at hholds
        rw [hdecayed]
        exact hqueue rest _ (hdecay hretained (hsafe (.inr hcheck)))
    · by_cases ht : s.trusts
      · exact hexec hi hstep (hpending ht)
      · obtain ⟨hrun, hcheck⟩ := hdistrusted ht
        have houtside : OutsideRun { s with pending := rest } t :=
          exec_outside_run hi (State.tick_of_supplySafe hsupply hrun) hrun hstep
        rcases houtside with hsealed | ⟨changed, rfl⟩
        · exact absurd htrusts (State.not_trusts_of_sealed hsealed hcheck)
        · exact hcold changed hcheck

end Sys2Proof.Machine

namespace Sys2Proof.Proofs
open Sys2Proof Sys2Proof.Machine

/-- Settles O58: every event but a decay keeps both invariants, and outside RUN only a COLD restart can follow contents that the
part does not stand by. -/
theorem stepsKeepLockAndTitles : Obligations.StepsKeepLockAndTitles := by
  have hcold : ∀ {s : State} (changed), s.checkHolds = false →
      LockSafe (s.enterRunStep changed) ∧ TitleSafe (s.enterRunStep changed) := fun {s} changed hcheck => by
    rw [State.enterRunStep, hcheck]
    exact s.restart_cold_safe
  exact ⟨
    keptWhereTrusted_of (fun _ _ => id) (clockPeriod_kept _).lock (State.settle_kept _).lock
      (fun hi h => (exec_roomKept hi h).lock) (fun changed h => (hcold changed h).1)
      (fun h => (State.decay_kept h).lock),
    keptWhereTrusted_of (fun _ _ => id) (clockPeriod_kept _).titles (State.settle_kept _).titles
      (fun hi h => (exec_roomKept hi h).titles) (fun changed h => (hcold changed h).2)
      (fun h => (State.decay_kept h).titles)⟩

end Sys2Proof.Proofs
end

section
namespace Sys2Proof.Machine

/-! ## Eviction and registration (R66, R67) -/

theorem State.titleCurrent_iff (s : State) (n : BitVec 16) :
    s.titleCurrent n = true ↔ ∃ i v, s.slots.get i = some v ∧ v.title = n := by
  simp only [State.titleCurrent, List.any_eq_true, mem_four, true_and]
  exact exists_congr fun i => by cases s.slots.get i <;> simp

theorem State.evictable_iff (s : State) (e : TitleEntry) : s.evictable e = true ↔
    e.state = .offered ∧ e.used = 0 ∧ ¬ ∃ i v, s.slots.get i = some v ∧ v.title = e.number := by
  rw [← s.titleCurrent_iff, State.evictable]
  simp [and_assoc]

/-- What keeps an entry from eviction. -/
theorem State.not_evictable {s : State} {e : TitleEntry} (h : ¬ s.evictable e = true) :
    e.state ≠ .offered ∨ e.used ≠ 0 ∨ ∃ i v, s.slots.get i = some v ∧ v.title = e.number := by
  rw [s.evictable_iff] at h
  tauto

/-! ## OPEN_STAY (R69, R133, R134) -/

section
variable {s : State} {number credit : Word} {ceiling discount : Byte} {pin : PinField}

theorem State.runOpenStay_badFormat (h : number = 0 ∨ pinWellFormed pin = false) :
    s.runOpenStay number ceiling credit discount pin = (s, .badFormat, .absent) := if_pos h

variable (h : ¬ (number = 0 ∨ pinWellFormed pin = false))
include h

theorem State.runOpenStay_busy (hy : s.stay.state ≠ .vacant) :
    s.runOpenStay number ceiling credit discount pin = (s, .stayBusy, .absent) := (if_neg h).trans (if_pos hy)

theorem State.runOpenStay_opens (hy : s.stay.state = .vacant) :
    s.runOpenStay number ceiling credit discount pin =
      (s.openedStay number (s.clampCeiling ceiling) (clampCredit credit) (clampDiscount discount) (pinDigits pin), .done,
        .openStay (s.clampCeiling ceiling) (clampCredit credit) (clampDiscount discount)) :=
  (if_neg h).trans (if_neg (not_not_intro hy))

end

/-! ## ACK_CHARGES (R120, R136) -/

/-- ACK_CHARGES of a stay that does not end releases the records acknowledged (R120). -/
theorem State.runAckCharges_releases {s : State} {q : Nat}
    (h : ¬ (s.stay.state = .closing ∧ s.charges.ackTo q = s.charges.lastIssued)) :
    s.runAckCharges q =
      ({ s with charges := s.charges.release (s.charges.ackTo q) }, .done,
        .ackCharges (s.charges.ackTo q) s.charges.lastIssued) := by
  simp only [State.runAckCharges, if_neg h]
  rfl

/-- The acknowledgement of the last record of a CLOSING stay returns the room to VACANT (R136). -/
theorem State.runAckCharges_vacates {s : State} {q : Nat} (hy : s.stay.state = .closing)
    (h : s.charges.ackTo q = s.charges.lastIssued) :
    s.runAckCharges q =
      (({ s with charges := s.charges.release (s.charges.ackTo q) } : State).becomeVacant, .done, .ackCharges 0 0) := by
  simp only [State.runAckCharges, if_pos (And.intro hy h)]
  simp [State.becomeVacant]

/-! ## BUY (R113, R116) -/

section
variable {s : State} {n : BitVec 16} {e : TitleEntry}

theorem State.commitCheck_vacant (hy : s.stay.state = .vacant) : s.commitCheck n = .error .noStay := by
  rw [State.commitCheck, hy]

theorem State.commitCheck_closing (hy : s.stay.state = .closing) : s.commitCheck n = .error .closing := by
  rw [State.commitCheck, hy]

variable (hy : s.stay.state = .occupied)
include hy

theorem State.commitCheck_noTitle (he : s.title? n = none) : s.commitCheck n = .error .noTitle := by
  rw [State.commitCheck, hy]
  simp only [he]

theorem State.commitCheck_fails (he : s.title? n = some e) {r : ResultCode} (h : s.commitEntryCheck e = some r) :
    s.commitCheck n = .error r := by
  rw [State.commitCheck, hy]
  simp only [he, h]

theorem State.commitCheck_passes (he : s.title? n = some e) (h : s.commitEntryCheck e = none) :
    s.commitCheck n = .ok e := by
  rw [State.commitCheck, hy]
  simp only [he, h]

end

/-! ### The checks of a commit on an entry, in their order (R113) -/

section
variable {s : State} {e : TitleEntry}

theorem State.commitEntryCheck_already (hb : e.bought = true) : s.commitEntryCheck e = some .already := if_pos hb

variable (hb : e.bought = false)
include hb

theorem State.commitEntryCheck_free (hp : e.price = 0) : s.commitEntryCheck e = some .free := by
  simp [State.commitEntryCheck, hb, hp]

variable (hp : e.price ≠ 0)
include hp

theorem State.commitEntryCheck_rating (hr : s.effectiveCeiling < e.rating) : s.commitEntryCheck e = some .rating := by
  simp [State.commitEntryCheck, hb, hp, hr]

variable (hr : e.rating ≤ s.effectiveCeiling)
include hr

theorem State.commitEntryCheck_credit (hc : s.stay.credit < s.spent + s.totalOf e) : s.commitEntryCheck e = some .credit := by
  simp [State.commitEntryCheck, hb, hp, Nat.not_lt.mpr hr, hc]

variable (hc : s.spent + s.totalOf e ≤ s.stay.credit)
include hc

theorem State.commitEntryCheck_logFull (hf : 15 ≤ s.charges.purchases ∨ 2 ^ 32 - 2 ≤ s.charges.lastIssued) :
    s.commitEntryCheck e = some .logFull := by
  rw [State.commitEntryCheck, if_neg (Bool.eq_false_iff.mp hb), if_neg hp, if_neg (Nat.not_lt.mpr hr),
    if_neg (Nat.not_lt.mpr hc), if_pos hf]

theorem State.commitEntryCheck_passes (hf : ¬ (15 ≤ s.charges.purchases ∨ 2 ^ 32 - 2 ≤ s.charges.lastIssued)) :
    s.commitEntryCheck e = none := by
  rw [State.commitEntryCheck, if_neg (Bool.eq_false_iff.mp hb), if_neg hp, if_neg (Nat.not_lt.mpr hr),
    if_neg (Nat.not_lt.mpr hc), if_neg hf]

end

theorem State.runBuy_fails {s : State} {n : BitVec 16} {r : ResultCode} (h : s.commitCheck n = .error r) :
    s.runBuy n = (s, r, s.buyFailure n r) := by
  rw [State.runBuy, h]

theorem State.runBuy_commits {s : State} {n : BitVec 16} {e : TitleEntry} (h : s.commitCheck n = .ok e) :
    s.runBuy n =
      (s.makeCommit e s.stay.seconds, .done,
        .buy (s.charges.lastIssued + 1) (s.netOf e) (s.taxOf e) (s.spent + s.totalOf e)
          (s.stay.credit - (s.spent + s.totalOf e))) := by
  have hspent : (s.makeCommit e s.stay.seconds).spent = s.spent + s.totalOf e := Nat.add_add_add_comm ..
  rw [State.runBuy, h]
  simp only [State.creditRemaining, hspent]
  rfl

/-- Only a failure on CREDIT carries a payload (R116). -/
theorem State.buyFailure_absent (s : State) (n : BitVec 16) {r : ResultCode} (h : r ≠ .credit) : s.buyFailure n r = .absent := by
  unfold State.buyFailure
  split
  · exact absurd rfl h
  · rfl

theorem State.buyFailure_credit {s : State} {n : BitVec 16} {e : TitleEntry} (he : s.title? n = some e) :
    s.buyFailure n .credit = .buyCredit (s.totalOf e) s.creditRemaining := by
  simp only [State.buyFailure, he]

end Sys2Proof.Machine

namespace Sys2Proof.Proofs
open Sys2Proof Sys2Proof.Machine

/-- Settles O20: `victim` is the first entry of the table that qualifies. -/
theorem evictionTakesTheLeastRecentCandidate : Obligations.EvictionTakesTheLeastRecentCandidate := by
  unfold Obligations.EvictionTakesTheLeastRecentCandidate
  refine ⟨fun s e hvictim => ?_, fun s hvictim x hx => ?_, fun s t => ?_⟩
  · obtain ⟨hevictable, before, after, htitles, hbefore⟩ := List.find?_eq_some_iff_append.mp hvictim
    obtain ⟨hoffered, hused, hcurrent⟩ := (s.evictable_iff e).mp hevictable
    exact ⟨before, after, htitles, hoffered, hused, fun i v hv ht => hcurrent ⟨i, v, hv, ht⟩,
      fun x hx => State.not_evictable (by simpa using hbefore x hx)⟩
  · exact State.not_evictable (List.find?_eq_none.mp hvictim x hx)
  · refine ⟨rfl, rfl, rfl, rfl, rfl, rfl, rfl, rfl, fun h => ?_, fun _ hy => ?_, fun h hy => ?_⟩
    · exact if_neg fun hl => absurd hl.1 (Nat.one_le_iff_ne_zero.mp h)
    · exact if_neg fun hl => hl.2 hy
    · exact if_pos ⟨h, hy⟩

/-- Settles O31, test by test of `runOpenStay`. -/
theorem openStayOpensTheStay : Obligations.OpenStayOpensTheStay := by
  unfold Obligations.OpenStayOpensTheStay
  intro tag number credit ceiling discount pin s c htakes
  have hanswer : ∀ {u a}, s.runOpenStay number ceiling credit discount pin = (u, a) → Answers c tag 0x03 s u a :=
    answers_of_takes (exec_openStay tag number ceiling credit discount pin s) htakes
  have hformat : number ≠ 0 → pinWellFormed pin = true → ¬ (number = 0 ∨ pinWellFormed pin = false) := by
    simp_all
  exact ⟨fun h => hanswer (State.runOpenStay_badFormat h), fun hn hp hy => hanswer (State.runOpenStay_busy (hformat hn hp) hy),
    fun hn hp hy => hanswer (State.runOpenStay_opens (hformat hn hp) hy)⟩

/-- Settles O33, by whether the acknowledgement ends the stay. -/
theorem ackChargesReleasesRecords : Obligations.AckChargesReleasesRecords := by
  unfold Obligations.AckChargesReleasesRecords
  intro tag sequence s htakes c ack left write
  have hanswer : ∀ {u a}, s.runAckCharges sequence.toNat = (u, a) → Answers c tag 0x06 s u a :=
    answers_of_takes (exec_ackCharges tag sequence s) htakes
  exact ⟨fun h => hanswer (State.runAckCharges_releases fun hn => h.elim (absurd hn.1) (absurd hn.2)),
    fun hy h => hanswer (State.runAckCharges_vacates hy h)⟩

/-- Settles O36, check by check of R113. -/
theorem buyCommitsOrNamesTheFailedCheck : Obligations.BuyCommitsOrNamesTheFailedCheck := by
  unfold Obligations.BuyCommitsOrNamesTheFailedCheck
  intro tag title s htakes c spent
  have hanswer : ∀ {u a}, s.runBuy title = (u, a) → Answers c tag 0x09 s u a := answers_of_takes (exec_buy tag title s) htakes
  have hfails : ∀ {r}, s.commitCheck title = .error r → r ≠ .credit → Declines c tag 0x09 s (r, .absent) := fun h hr =>
    hanswer ((State.runBuy_fails h).trans (by rw [s.buyFailure_absent title hr]))
  refine ⟨fun hy => hfails (State.commitCheck_vacant hy) nofun, fun hy => hfails (State.commitCheck_closing hy) nofun,
    fun hy => ⟨fun he => hfails (State.commitCheck_noTitle hy he) nofun, fun e he => ?_⟩⟩
  intro net tax full
  have hentry : ∀ {r}, s.commitEntryCheck e = some r → s.commitCheck title = .error r := State.commitCheck_fails hy he
  refine ⟨fun hb => hfails (hentry (State.commitEntryCheck_already hb)) nofun,
    fun hb hp => hfails (hentry (State.commitEntryCheck_free hb hp)) nofun,
    fun hb hp hr => hfails (hentry (State.commitEntryCheck_rating hb hp hr)) nofun, fun hb hp hr hc => ?_,
    fun hb hp hr hc hf => hfails (hentry (State.commitEntryCheck_logFull hb hp hr hc hf)) nofun, fun hb hp hr hc hf => ?_⟩
  · refine hanswer ((State.runBuy_fails (hentry (State.commitEntryCheck_credit hb hp hr hc))).trans ?_)
    rw [State.buyFailure_credit he]
    rfl
  · exact hanswer (State.runBuy_commits (State.commitCheck_passes hy he (State.commitEntryCheck_passes hb hp hr hc hf)))

end Sys2Proof.Proofs
end

section
namespace Sys2Proof.Machine

/-! ## Where the meter stands (R71; log entry 6) -/

section
variable {s : State} {n : BitVec 16} {rest : List (BitVec 16)} {e : TitleEntry}

theorem State.meterRun_unlisted (h : s.title? n = none) : State.meterRun (n :: rest) s = State.meterRun rest s := by
  simp only [State.meterRun, h]

theorem State.meterRun_stops (he : s.title? n = some e) (hstop : s.meterStops e = true) :
    State.meterRun (n :: rest) s = { s with tick := { s.tick with meter := n :: rest } } := by
  simp only [State.meterRun, he, hstop, if_true]

theorem State.meterRun_acts (he : s.title? n = some e) (hstop : ¬ s.meterStops e = true) :
    State.meterRun (n :: rest) s = State.meterRun rest (s.meterEntry e) := by
  simp only [State.meterRun, he, if_neg hstop]

/-- A meter that stands at an entry stays there. -/
theorem State.runMeter_stands (hm : s.tick.meter = n :: rest) (he : s.title? n = some e) (hstop : s.meterStops e = true) :
    s.runMeter = s := by
  rw [State.runMeter, hm, State.meterRun_stops he hstop, ← hm]

/-- The step of a meter that stands at an entry is its action there; the meter then goes on. -/
theorem State.meterStep_stands (hm : s.tick.meter = n :: rest) (he : s.title? n = some e) (hstop : s.meterStops e = true)
    {acts : State → TitleEntry → Bool} (act : State → TitleEntry → State) (ha : acts s e = true) :
    s.meterStep acts act = some (State.meterRun rest ((act s e).clearSeen e.number)) := by
  simp [State.meterStep, State.runMeter_stands hm he hstop, State.meterAt, hm, he, ha]

end

/-- The meter has acted on all its entries, or it stands at one of them whose action is a step of its own. -/
theorem State.meterRun_cases (ts : List (BitVec 16)) : ∀ s : State, (State.meterRun ts s).tick.meter = [] ∨
    ∃ n rest e, (State.meterRun ts s).tick.meter = n :: rest ∧ (State.meterRun ts s).title? n = some e ∧
      (State.meterRun ts s).meterStops e = true ∧ rest.length < ts.length := by
  induction ts with
  | nil => exact fun _ => .inl rfl
  | cons t ts ih =>
    have hlater : ∀ s, (State.meterRun ts s).tick.meter = [] ∨
        ∃ n rest e, (State.meterRun ts s).tick.meter = n :: rest ∧ (State.meterRun ts s).title? n = some e ∧
          (State.meterRun ts s).meterStops e = true ∧ rest.length < (t :: ts).length := fun s =>
      (ih s).imp_right fun ⟨n, rest, e, hm, he, hstop, hlen⟩ => ⟨n, rest, e, hm, he, hstop, Nat.lt_succ_of_lt hlen⟩
    intro s
    cases he : s.title? t with
    | none =>
      rw [State.meterRun_unlisted he]
      exact hlater s
    | some e =>
      by_cases hstop : s.meterStops e = true
      · rw [State.meterRun_stops he hstop]
        exact .inr ⟨t, ts, e, rfl, he, hstop, Nat.lt_succ_self _⟩
      · rw [State.meterRun_acts he hstop]
        exact hlater _

/-- A meter that has gone on as far as it can stays where it is. -/
theorem State.runMeter_meterRun (ts : List (BitVec 16)) (s : State) :
    (State.meterRun ts s).runMeter = State.meterRun ts s := by
  rcases State.meterRun_cases ts s with h | ⟨n, rest, e, hm, he, hstop, -⟩
  · exact State.runMeter_of_nil h
  · exact State.runMeter_stands hm he hstop

@[simp] theorem State.runMeter_runMeter (s : State) : s.runMeter.runMeter = s.runMeter := State.runMeter_meterRun _ s

/-- A meter that has not begun goes on to where it stands first. -/
theorem State.meterStep_runMeter (s : State) (acts : State → TitleEntry → Bool) (act : State → TitleEntry → State) :
    s.runMeter.meterStep acts act = s.meterStep acts act := by
  simp only [State.meterStep, State.runMeter_runMeter]

theorem State.previewEndStep_runMeter (s : State) : s.runMeter.previewEndStep = s.previewEndStep := s.meterStep_runMeter _ _

theorem State.rentalLapsedStep_runMeter (s : State) : s.runMeter.rentalLapsedStep = s.rentalLapsedStep := s.meterStep_runMeter _ _

theorem exec_previewEnd_of_some {s t : State} (h : s.previewEndStep = some t) : exec .previewEnd s = .next t := by
  show Host.Outcome.next (s.previewEndStep.getD s) = _
  rw [h, Option.getD_some]

theorem exec_rentalLapsed_of_some {s t : State} (h : s.rentalLapsedStep = some t) : exec .rentalLapsed s = .next t := by
  show Host.Outcome.next (s.rentalLapsedStep.getD s) = _
  rw [h, Option.getD_some]

/-! ## What the meter's run leaves (R71, R72) -/

/-- Entries changed in no number leave the table's numbers in their order (R65). -/
theorem State.updateTitle_numbers (s : State) (n : BitVec 16) {f : TitleEntry → TitleEntry}
    (hf : ∀ e : TitleEntry, (f e).number = e.number) :
    (s.updateTitle n f).titles.map TitleEntry.number = s.titles.map TitleEntry.number := by
  simp [Function.comp_def, apply_ite TitleEntry.number, hf]

theorem State.countPreview_titles (s : State) (e : TitleEntry) :
    (s.countPreview e).titles = (s.updateTitle e.number TitleEntry.counted).titles :=
  congrArg RoomView.titles (s.countPreview_room e)

/-- The meter's action on an entry leaves the charges, the lock and the draws, and the table's numbers. -/
theorem State.meterEntry_leaves (s : State) (e : TitleEntry) : (s.meterEntry e).charges = s.charges ∧
    (s.meterEntry e).lock = s.lock ∧ (s.meterEntry e).freeDraws = s.freeDraws ∧
    (s.meterEntry e).titles.map TitleEntry.number = s.titles.map TitleEntry.number := by
  have hseen : ∀ u : State, (u.clearSeen e.number).titles.map TitleEntry.number = u.titles.map TitleEntry.number := fun u =>
    u.updateTitle_numbers e.number fun _ => rfl
  unfold State.meterEntry
  rw [hseen]
  split
  · rw [s.countPreview_titles, s.updateTitle_numbers e.number (f := TitleEntry.counted) fun _ => rfl]
    unfold State.countPreview
    dsimp only
    split
    · simp [State.clearSeen]
    · exact ⟨rfl, rfl, rfl, rfl⟩
  · exact ⟨rfl, rfl, rfl, rfl⟩

theorem State.meterRun_leaves (ts : List (BitVec 16)) : ∀ s : State, (State.meterRun ts s).charges = s.charges ∧
    (State.meterRun ts s).lock = s.lock ∧ (State.meterRun ts s).freeDraws = s.freeDraws ∧
    (State.meterRun ts s).titles.map TitleEntry.number = s.titles.map TitleEntry.number := by
  induction ts with
  | nil => exact fun _ => ⟨rfl, rfl, rfl, rfl⟩
  | cons t ts ih =>
    intro s
    cases he : s.title? t with
    | none =>
      rw [State.meterRun_unlisted he]
      exact ih s
    | some e =>
      by_cases hstop : s.meterStops e = true
      · rw [State.meterRun_stops he hstop]
        exact ⟨rfl, rfl, rfl, rfl⟩
      · rw [State.meterRun_acts he hstop]
        obtain ⟨hcharges, hlock, hdraws, hnumbers⟩ := s.meterEntry_leaves e
        rw [← hcharges, ← hlock, ← hdraws, ← hnumbers]
        exact ih _

/-- The meter's run changes nothing but the title table, the queue of reports and the tick's work. -/
theorem State.meterRun_eq (ts : List (BitVec 16)) (s : State) : State.meterRun ts s = { s with
    titles := (State.meterRun ts s).titles, reports := (State.meterRun ts s).reports
    overflow := (State.meterRun ts s).overflow, tick := (State.meterRun ts s).tick } := by
  obtain ⟨hcharges, hlock, hdraws, -⟩ := State.meterRun_leaves ts s
  have h := (State.meterRun_workOnly ts s).eq
  rwa [hcharges, hlock, hdraws] at h

/-! ## The end of a preview (R72 to R74) -/

theorem State.title?_congr {s t : State} (h : t.titles = s.titles) (n : BitVec 16) : t.title? n = s.title? n := by
  rw [State.title?, h, ← State.title?]

/-- The entry found for a number after its change is the changed one. -/
theorem State.title?_updateTitle (s : State) (n : BitVec 16) {f : TitleEntry → TitleEntry}
    (hf : ∀ e : TitleEntry, (f e).number = e.number) : (s.updateTitle n f).title? n = (s.title? n).map f := by
  have hnum : ∀ e : TitleEntry, (if e.number = n then f e else e).number = e.number := fun e => by split <;> simp [hf]
  simp only [State.title?, State.updateTitle, List.find?_map, Function.comp_def, beq_iff_eq, hnum]
  cases hfind : s.titles.find? fun e => e.number == n with
  | none => rfl
  | some e =>
    have hn : e.number = n := by simpa using List.find?_some hfind
    simp [hn]

section
variable {s : State} {e : TitleEntry}

/-- The entry is found with its second counted. -/
theorem State.title?_countPreview (he : s.title? e.number = some e) : (s.countPreview e).title? e.number = some e.counted := by
  rw [State.title?_congr (s.countPreview_titles e), s.title?_updateTitle e.number (f := TitleEntry.counted) fun _ => rfl,
    he, Option.map_some]

theorem State.countPreview_leaves (s : State) (e : TitleEntry) :
    (s.countPreview e).stay = s.stay ∧ (s.countPreview e).charges = s.charges := by
  unfold State.countPreview
  dsimp only
  split
  · exact ⟨State.raiseEvent_stay _ _, State.raiseEvent_charges _ _⟩
  · exact ⟨rfl, rfl⟩

/-- A preview seen only in a mosaic window ends in EXHAUSTED with MOSAIC (R74). -/
theorem State.endPreview_mosaic (h : e.seenMain = false) : s.endPreview e = s.exhaust e.number .mosaic :=
  if_neg (Bool.eq_false_iff.mp h)

variable (h : e.seenMain = true)
include h

/-- A preview seen on the main picture whose commit fails ends in EXHAUSTED with the failed result (R73). -/
theorem State.endPreview_fails {r : ResultCode} (hc : s.commitCheck e.number = .error r) :
    s.endPreview e = s.exhaust e.number (.failed r) := by
  simp only [State.endPreview, h, if_true, hc]

/-- A preview seen on the main picture whose commit passes ends in a purchase (R73). -/
theorem State.endPreview_buys {x : TitleEntry} (hc : s.commitCheck e.number = .ok x) :
    s.endPreview e =
      (s.makeCommit x s.stay.seconds).raiseEvent (.purchased e.number (s.charges.lastIssued + 1)) := by
  simp only [State.endPreview, h, if_true, hc]

end

end Sys2Proof.Machine

namespace Sys2Proof.Proofs
open Sys2Proof Sys2Proof.Machine

/-- Settles O49, by how the title was seen and, on the main picture, by the commit's checks. -/
theorem aPreviewEndsInPurchaseOrExhaustion : Obligations.APreviewEndsInPurchaseOrExhaustion := by
  unfold Obligations.APreviewEndsInPurchaseOrExhaustion
  refine ⟨fun s n rest e hm he hy hlimit hstate hseen => ?_, fun s t h => ?_, fun rest u => ?_⟩
  · obtain ⟨-, rfl⟩ := State.title?_eq_some he
    intro counted p started ended exhausted
    have hstarted : started = s.countPreview e := rfl
    obtain ⟨hstay, hcharges⟩ := s.countPreview_leaves e
    have hacts : (s.counts e && e.atEnd) = true := by
      rw [(s.counts_iff e).mpr ⟨hy, hstate, hseen⟩, e.atEnd_iff.mpr hlimit]
      rfl
    have hended : ∀ u, (s.countPreview e).endPreview e = u → ended u := fun u hu =>
      exec_previewEnd_of_some ((State.meterStep_stands hm he (by rw [State.meterStops, hacts]; rfl) _ hacts).trans
        (by rw [hu]; rfl))
    have hopen : (s.countPreview e).stay.state = .occupied := by rw [hstay, hy]
    have hfound := State.title?_countPreview he
    refine ⟨fun hmain => hended _ (State.endPreview_mosaic hmain), fun r hmain hr => ?_, fun hmain hpass => ?_⟩
    · exact hended _ (State.endPreview_fails hmain (State.commitCheck_fails hopen hfound hr))
    · refine hended _ ((State.endPreview_buys hmain (State.commitCheck_passes hopen hfound hpass)).trans ?_)
      rw [hstay, hcharges]
      rfl
  · rw [s.previewEndStep_runMeter] at h
    exact ⟨exec_previewEnd_of_some h, exec_previewEnd_of_some (s.previewEndStep_runMeter.trans h)⟩
  · obtain ⟨-, -, -, hnumbers⟩ := State.meterRun_leaves rest u
    exact ⟨State.meterRun_eq rest u, hnumbers⟩

end Sys2Proof.Proofs
end

section
namespace Sys2Proof.Machine

/-! ## The other steps of a tick (R75, R88, R91) -/

/-- A report may be raised before or after an entry of the title table is changed. -/
theorem State.updateTitle_raiseEvent (s : State) (e : Event) (n : BitVec 16) (f : TitleEntry → TitleEntry) :
    (s.raiseEvent e).updateTitle n f = (s.updateTitle n f).raiseEvent e :=
  apply_ite (State.updateTitle · n f) _ _ _

/-- Two changes that agree on the entry that a number finds agree on the table, where each number stands once (R65). -/
theorem State.updateTitle_congr {s : State} {n : BitVec 16} {e : TitleEntry} {f g : TitleEntry → TitleEntry}
    (hnodup : (s.titles.map TitleEntry.number).Nodup) (he : s.title? n = some e) (hfg : f e = g e) :
    s.updateTitle n f = s.updateTitle n g := by
  obtain ⟨hmem, hn⟩ := State.title?_eq_some he
  have hentry : ∀ x ∈ s.titles, (if x.number == n then f x else x) = if x.number == n then g x else x := fun x hx => by
    by_cases hxn : x.number = n
    · obtain rfl : x = e := List.inj_on_of_nodup_map hnodup hx hmem (hxn.trans hn.symm)
      rw [hfg]
    · simp [hxn]
  simp only [State.updateTitle]
  rw [List.map_congr_left hentry]

/-- A rental at its end becomes LAPSED with its second and sequence kept, and its seen flags are cleared (R71, R75). -/
theorem State.lapse_clearSeen {s : State} {e : TitleEntry} {second sequence : Nat}
    (hnodup : (s.titles.map TitleEntry.number).Nodup) (he : s.title? e.number = some e)
    (hstate : e.state = .purchased second sequence) :
    (s.lapse e).clearSeen e.number =
      (s.updateTitle e.number (fun x => { x with state := .lapsed second sequence, seenMain := false, seenMosaic := false })).raiseEvent
        (.rentalLapsed e.number) := by
  rw [State.clearSeen, State.lapse, State.updateTitle_raiseEvent, State.updateTitle_updateTitle s e.number _ fun x => by split <;> rfl,
    State.updateTitle_congr hnodup he]
  rw [hstate]
  rfl

/-- The lift's outstanding work is its row: the remainder reaches 0 and the lift ends by expiry (R91, R92). -/
theorem State.settleLift_of_lift {s : State} (h : s.tick.lift = true) : s.settleLift =
    { s with lock := { s.lock with lift := 0 }, tick := { s.tick with lift := false } }.raiseEvent (.liftEnded .expired) := by
  rw [State.settleLift, State.liftExpiredStep, if_pos h, Option.getD_some]

theorem State.settleLift_of_idle {s : State} (h : s.tick.lift = false) : s.settleLift = s := by
  rw [State.settleLift, State.liftExpiredStep, if_neg (Bool.eq_false_iff.mp h), Option.getD_none]

/-- The lockout's outstanding work is its row: the remainder reaches 0 and the lockout ends (R88). -/
theorem State.settleLockout_of_lockout {s : State} (h : s.tick.lockout = true) : s.settleLockout =
    { s with lock := { s.lock with lockout := 0 }, tick := { s.tick with lockout := false } }.raiseEvent .lockoutEnded := by
  rw [State.settleLockout, State.lockoutEndedStep, if_pos h, Option.getD_some]

theorem State.settleLockout_of_idle {s : State} (h : s.tick.lockout = false) : s.settleLockout = s := by
  rw [State.settleLockout, State.lockoutEndedStep, if_neg (Bool.eq_false_iff.mp h), Option.getD_none]

theorem exec_liftExpired (s : State) : exec .liftExpired s = .next s.settleLift := rfl

theorem exec_lockoutEnded (s : State) : exec .lockoutEnded s = .next s.settleLockout := rfl

end Sys2Proof.Machine

namespace Sys2Proof.Proofs
open Sys2Proof Sys2Proof.Machine

/-- Settles O50, row by row of the tick. -/
theorem theOtherStepsOfATick : Obligations.TheOtherStepsOfATick := by
  unfold Obligations.TheOtherStepsOfATick
  refine fun s => ⟨fun n rest e second sequence hm he hstate hy hdue hseen hnodup => ?_, fun t h => ?_, fun h => ?_,
    fun h => ?_, fun h => ?_⟩
  · obtain ⟨-, rfl⟩ := State.title?_eq_some he
    have hacts : (s.rentalDue e && !e.seenMain) = true := by
      rw [(s.rentalDue_iff e).mpr ⟨second, sequence, hstate, hy, hdue⟩, hseen]
      rfl
    have hstop : s.meterStops e = true := by
      rw [State.meterStops, hacts, Bool.or_true]
    rw [← State.lapse_clearSeen hnodup he hstate]
    exact exec_rentalLapsed_of_some (State.meterStep_stands hm he hstop State.lapse hacts)
  · rw [s.rentalLapsedStep_runMeter] at h
    exact ⟨exec_rentalLapsed_of_some h, exec_rentalLapsed_of_some (s.rentalLapsedStep_runMeter.trans h)⟩
  · rw [exec_liftExpired, State.settleLift_of_lift h]
  · rw [exec_lockoutEnded, State.settleLockout_of_lockout h]
  · exact exec_tickRow_of_none h

end Sys2Proof.Proofs
end

section
namespace Sys2Proof.Machine

/-! ## A tick in progress is completed before any other event (R145; log entries 5 and 6) -/

@[simp] theorem State.settle_settle (s : State) : s.settle.settle = s.settle := State.settle_of_none _ s.settle_tick

/-- An event is taken from the state in which the tick in progress is completed. -/
theorem perform_settle (f : State → Option State) (s : State) : perform f s = perform f s.settle := by
  simp only [perform, State.settle_settle]

theorem execCommand_settle (c : Instr) (tag : Word) (code : Byte) (run : State → State × Answer) (s : State) :
    execCommand c tag code run s = execCommand c tag code run s.settle := perform_settle _ s

theorem exec_settle_of_command {c : Instr} {tag : Word} {code : Byte} {run : State → State × Answer}
    (h : ∀ s, exec c s = execCommand c tag code run s) (s : State) : exec c s = exec c s.settle := by
  rw [h, execCommand_settle, ← h]

theorem execMediaCommandPhase_settle (dir : Direction) (addr : Word) (count : Nat) (s : State) :
    execMediaCommandPhase dir addr count s = execMediaCommandPhase dir addr count s.settle := by
  unfold execMediaCommandPhase
  rw [perform_settle]

/-- An event that is no row of the tick completes the tick in progress first. -/
theorem exec_settle {c : Instr} (s : State) (hpreview : c ≠ .previewEnd) (hrental : c ≠ .rentalLapsed) (hlift : c ≠ .liftExpired)
    (hlockout : c ≠ .lockoutEnded) : exec c s = exec c s.settle := by
  cases c with
  | previewEnd => exact absurd rfl hpreview
  | rentalLapsed => exact absurd rfl hrental
  | liftExpired => exact absurd rfl hlift
  | lockoutEnded => exact absurd rfl hlockout
  | mediaCommandPhase dir addr count => exact execMediaCommandPhase_settle dir addr count s
  | siteKey tag key => exact exec_settle_of_command (exec_siteKey tag key) s
  | tariff tag taxRate siteClamp houseCeiling discreetClass liftMinutes =>
    exact exec_settle_of_command (exec_tariff tag taxRate siteClamp houseCeiling discreetClass liftMinutes) s
  | openStay tag number ceiling credit discount pin => exact exec_settle_of_command (exec_openStay tag number ceiling credit discount pin) s
  | closeStay tag => exact exec_settle_of_command (exec_closeStay tag) s
  | stayQuery tag => exact exec_settle_of_command (exec_stayQuery tag) s
  | ackCharges tag sequence => exact exec_settle_of_command (exec_ackCharges tag sequence) s
  | logRegion tag base slots => exact exec_settle_of_command (exec_logRegion tag base slots) s
  | setCredit tag limit => exact exec_settle_of_command (exec_setCredit tag limit) s
  | buy tag title => exact exec_settle_of_command (exec_buy tag title) s
  | bind tag lane role service base slots => exact exec_settle_of_command (exec_bind tag lane role service base slots) s
  | unbind tag lane => exact exec_settle_of_command (exec_unbind tag lane) s
  | unlock tag pin => exact exec_settle_of_command (exec_unlock tag pin) s
  | relock tag => exact exec_settle_of_command (exec_relock tag) s
  | setCeiling tag ceiling pin => exact exec_settle_of_command (exec_setCeiling tag ceiling pin) s
  | changePin tag old new => exact exec_settle_of_command (exec_changePin tag old new) s
  | queryTitle tag title => exact exec_settle_of_command (exec_queryTitle tag title) s
  | unknown tag code => exact exec_settle_of_command (exec_unknown tag code) s
  | _ =>
    unfold exec
    exact perform_settle _ s

/-! ## The meter's outstanding work, one row after another (R138; log entry 6) -/

section
variable {s t : State} {n : Nat}

theorem State.finishMeter_previewEnd (h : s.previewEndStep = some t) : s.finishMeter (n + 1) = t.finishMeter n := by
  simp only [State.finishMeter, h]

theorem State.finishMeter_rentalLapsed (hp : s.previewEndStep = none) (h : s.rentalLapsedStep = some t) :
    s.finishMeter (n + 1) = t.finishMeter n := by
  simp only [State.finishMeter, hp, h]

theorem State.finishMeter_idle (hp : s.previewEndStep = none) (hr : s.rentalLapsedStep = none) :
    s.finishMeter n = { s with tick := { s.tick with meter := [] } } := by
  cases n with
  | zero => rfl
  | succ n => simp only [State.finishMeter, hp, hr]

theorem State.finishMeter_of_nil (h : s.tick.meter = []) : s.finishMeter n = s := by
  have hnone : s.runMeter.tick.meter = [] := by rw [State.runMeter_of_nil h, h]
  rw [State.finishMeter_idle (State.meterStep_of_nil _ _ hnone) (State.meterStep_of_nil _ _ hnone), ← h]

/-- The meter goes on with no more entries than it had before it. -/
theorem State.meterRun_length (ts : List (BitVec 16)) (s : State) : (State.meterRun ts s).tick.meter.length ≤ ts.length := by
  rcases State.meterRun_cases ts s with h | ⟨n, rest, e, hm, -, -, hlen⟩
  · rw [h]
    exact Nat.zero_le _
  · rw [hm]
    exact hlen

/-- After a step of the meter it stands where it can go no further, with an entry less before it. -/
theorem State.meterStep_advances {acts : State → TitleEntry → Bool} {act : State → TitleEntry → State}
    (h : s.meterStep acts act = some t) : t.runMeter = t ∧ t.tick.meter.length < s.runMeter.tick.meter.length := by
  obtain ⟨m, rest, e, hm, -, -, rfl⟩ := State.meterStep_cases h
  rw [hm]
  exact ⟨State.runMeter_meterRun _ _, Nat.lt_succ_of_le (State.meterRun_length _ _)⟩

end

/-- As many rounds as there are outstanding entries are enough: more make no difference. -/
theorem State.finishMeter_enough {s : State} {n m : Nat} (hstands : s.runMeter = s) (hn : s.tick.meter.length ≤ n)
    (hm : s.tick.meter.length ≤ m) : s.finishMeter n = s.finishMeter m := by
  induction n generalizing m s with
  | zero =>
    have hnil := List.eq_nil_of_length_eq_zero (Nat.le_zero.mp hn)
    rw [State.finishMeter_of_nil hnil, State.finishMeter_of_nil hnil]
  | succ n ih =>
    cases m with
    | zero =>
      have hnil := List.eq_nil_of_length_eq_zero (Nat.le_zero.mp hm)
      rw [State.finishMeter_of_nil hnil, State.finishMeter_of_nil hnil]
    | succ m =>
      have hnext : ∀ {acts act t}, s.meterStep acts act = some t → t.finishMeter n = t.finishMeter m := fun h => by
        obtain ⟨ht, hlen⟩ := State.meterStep_advances h
        rw [hstands] at hlen
        exact ih ht (by omega) (by omega)
      cases hp : s.previewEndStep with
      | some t => rw [State.finishMeter_previewEnd hp, State.finishMeter_previewEnd hp, hnext hp]
      | none =>
        cases hr : s.rentalLapsedStep with
        | some t => rw [State.finishMeter_rentalLapsed hp hr, State.finishMeter_rentalLapsed hp hr, hnext hr]
        | none => rw [State.finishMeter_idle hp hr, State.finishMeter_idle hp hr]

/-- The meter's outstanding work is a first step of it and what is then outstanding. -/
theorem State.settleMeter_of_step {u v : State} {acts : State → TitleEntry → Bool} {act : State → TitleEntry → State}
    (h : u.meterStep acts act = some v) (hround : ∀ n, u.runMeter.finishMeter (n + 1) = v.finishMeter n) :
    u.settleMeter = v.settleMeter := by
  obtain ⟨hv, hlen⟩ := State.meterStep_advances h
  have hu : u.runMeter.tick.meter.length ≤ u.tick.meter.length := State.meterRun_length _ u
  obtain ⟨n, hn⟩ : ∃ n, u.tick.meter.length = n + 1 := ⟨u.tick.meter.length - 1, by omega⟩
  unfold State.settleMeter
  rw [hv, hn, hround]
  exact State.finishMeter_enough hv (by omega) le_rfl

theorem State.settleMeter_of_previewEnd {u v : State} (h : u.previewEndStep = some v) : u.settleMeter = v.settleMeter :=
  State.settleMeter_of_step h fun _ => State.finishMeter_previewEnd (u.previewEndStep_runMeter.trans h)

theorem State.settleMeter_of_rentalLapsed {u v : State} (hp : u.previewEndStep = none) (h : u.rentalLapsedStep = some v) :
    u.settleMeter = v.settleMeter :=
  State.settleMeter_of_step h fun _ =>
    State.finishMeter_rentalLapsed (u.previewEndStep_runMeter.trans hp) (u.rentalLapsedStep_runMeter.trans h)

/-- A meter that still has work stands before a row of its own. -/
theorem State.meter_rows {u : State} (h : u.runMeter.tick.meter ≠ []) : u.previewEndStep ≠ none ∨ u.rentalLapsedStep ≠ none := by
  obtain ⟨n, rest, e, hm, he, hstop, -⟩ := (State.meterRun_cases u.tick.meter u).resolve_left h
  change u.runMeter.tick.meter = _ at hm
  change u.runMeter.title? n = _ at he
  rw [← u.previewEndStep_runMeter, ← u.rentalLapsedStep_runMeter]
  have htaken : ∀ {acts} act, acts u.runMeter e = true → u.runMeter.meterStep acts act ≠ none := fun act hacts => by
    rw [State.meterStep_stands hm he hstop act hacts]
    exact Option.some_ne_none _
  exact (Bool.or_eq_true _ _ ▸ hstop).imp (htaken _) (htaken _)

/-- The completion of a tick takes the owners in one of their six orders. -/
theorem State.settle_orders {s : State} (h : s.tick ≠ TickWork.none) :
    let u := { s with freeDraws := s.freeDraws + 1 }
    s.settle ∈
      [u.settleMeter.settleLift.settleLockout, u.settleMeter.settleLockout.settleLift,
       u.settleLift.settleMeter.settleLockout, u.settleLift.settleLockout.settleMeter,
       u.settleLockout.settleMeter.settleLift, u.settleLockout.settleLift.settleMeter] := by
  intro u
  rw [State.settle, if_neg h]
  cases Config.tickOrder s.freeDraws <;> simp [State.settleIn, u]

end Sys2Proof.Machine

namespace Sys2Proof.Proofs
open Sys2Proof Sys2Proof.Machine

/-- Settles O3: the completion first, then its orders, the work of each owner by its rows, and a command not fetched. -/
theorem eventsAreTakenWholeOrNotAtAll : Obligations.EventsAreTakenWholeOrNotAtAll := by
  unfold Obligations.EventsAreTakenWholeOrNotAtAll
  refine ⟨fun c s hpreview hrental hlift hlockout => ⟨exec_settle s hpreview hrental hlift hlockout, s.settle_tick⟩,
    fun s h => State.settle_orders h, fun u => ?_, fun c s hrecord htick hready => exec_record_of_unready htick hrecord hready⟩
  refine ⟨fun _ => exec_liftExpired u, State.settleLift_of_idle, fun _ => exec_lockoutEnded u, State.settleLockout_of_idle,
    State.finishMeter_of_nil, fun v hv => ⟨exec_previewEnd_of_some hv, State.settleMeter_of_previewEnd hv⟩,
    fun v hp hv => ⟨exec_rentalLapsed_of_some hv, State.settleMeter_of_rentalLapsed hp hv⟩, State.meter_rows⟩

end Sys2Proof.Proofs
end

section
namespace Sys2Proof.Machine

/-! ## The beginning of a seconds tick (R71, R88, R91, R138, R139; log entry 6) -/

/-- What a seconds tick has done before the meter begins: where the lock unit has a report to hand too, a value that the manual
leaves free has been drawn. -/
def State.tickBegun (s : State) : State :=
  if s.beginTick.tick.lockReports then { s.beginTick with freeDraws := s.beginTick.freeDraws + 1 } else s.beginTick

theorem State.lockReports_beginTick (s : State) :
    s.beginTick.tick.lockReports = true ↔ s.lock.lift = 1 ∨ s.lock.lockout = 1 := by
  simp [TickWork.lockReports, State.beginTick]

theorem State.tickBegun_eq (s : State) : s.tickBegun = { s.beginTick with freeDraws := s.tickBegun.freeDraws } := by
  unfold State.tickBegun
  split <;> rfl

/-- With no report of the lock unit at the tick, the meter begins at once. -/
theorem State.secondsTickStep_of_quiet {s : State} (h : ¬ s.beginTick.tick.lockReports = true) :
    s.secondsTickStep = s.tickBegun.runMeter := by
  simp only [State.secondsTickStep, State.tickBegun, if_neg h]

/-- With a report of the lock unit at the tick, the meter begins at once or is left outstanding. -/
theorem State.secondsTickStep_of_reports {s : State} (h : s.beginTick.tick.lockReports = true) :
    s.secondsTickStep = s.tickBegun ∨ s.secondsTickStep = s.tickBegun.runMeter := by
  simp only [State.secondsTickStep, State.tickBegun, if_pos h]
  split
  · exact .inr rfl
  · exact .inl rfl

theorem exec_secondsTick_of_working {s : State} (htick : s.tick = TickWork.none) (hw : s.working = true) :
    exec .secondsTick s = .next s.secondsTickStep := by
  have harm : exec .secondsTick s = perform (fun s => if s.working then some s.secondsTickStep else none) s := rfl
  rw [harm, perform_of_none _ s htick, if_pos hw, Option.getD_some]

/-! ## Reports handed as far as the queue has room (R145) -/

/-- From `s` to `t` the reports `rs` are handed in their order, and the overflow mark says whether one was dropped. -/
def HandsReports (s t : State) (rs : List Report) : Prop :=
  s.reports.length ≤ 16 → t.reports = (s.reports ++ rs).take 16 ∧
    t.overflow = (s.overflow || decide (16 < s.reports.length + rs.length))

theorem HandsReports.none {s t : State} (hr : t.reports = s.reports) (ho : t.overflow = s.overflow) : HandsReports s t [] := by
  intro h
  rw [hr, ho, List.append_nil, List.take_of_length_le h]
  simp [Nat.not_lt.mpr h]

theorem State.hand_handsReports (s : State) (b : ReportBody) : HandsReports s (s.hand b) [⟨b, false⟩] := by
  intro h
  rw [State.hand_eq]
  by_cases hroom : s.reports.length < 16
  · simp [hroom, List.take_of_length_le (l := s.reports ++ [⟨b, false⟩]) (i := 16) (by simp; omega)]
  · simp [show s.reports.length = 16 by omega]

theorem HandsReports.trans {s u t : State} {rs qs : List Report} (hsu : HandsReports s u rs) (hut : HandsReports u t qs) :
    HandsReports s t (rs ++ qs) := by
  intro h
  obtain ⟨hur, huo⟩ := hsu h
  have hlen : u.reports.length = min 16 (s.reports.length + rs.length) := by
    rw [hur, List.length_take, List.length_append]
  obtain ⟨htr, hto⟩ := hut (by omega)
  constructor
  · rw [htr, hur, List.take_append, List.take_take, min_self, ← List.append_assoc, List.take_append (l₁ := s.reports ++ rs),
      List.length_take, List.length_append]
    congr 2
    omega
  · rw [hto, huo, hlen, List.length_append, Bool.or_assoc]
    congr 1
    rw [Bool.eq_iff_iff]
    simp only [Bool.or_eq_true, decide_eq_true_eq]
    omega

/-! ## A meter that acts on every entry (R71, R72) -/

/-- The entry after the meter's action on it that is no row of its own. -/
def State.metered (s : State) (e : TitleEntry) : TitleEntry := if s.counts e then e.counted.unseen else e.unseen

theorem State.metered_number (s : State) (e : TitleEntry) : (s.metered e).number = e.number := by
  unfold State.metered
  split <;> rfl

/-- The meter reports the entry's start: it is counted for the first time (R72). -/
def State.starts (s : State) (e : TitleEntry) : Bool := s.counts e && e.state == .offered

/-- PREVIEW_STARTED with the entry's role. -/
def TitleEntry.startReport (e : TitleEntry) : Report := ⟨.event (.previewStarted e.number e.seenRole), false⟩

/-- An entry of a table where each number stands once (R65) is the one its number finds. -/
theorem State.title?_of_mem {s : State} {e : TitleEntry} (hnodup : (s.titles.map TitleEntry.number).Nodup)
    (he : e ∈ s.titles) : s.title? e.number = some e := by
  cases hfind : s.title? e.number with
  | none => exact absurd rfl (State.title?_eq_none hfind e he)
  | some x =>
    obtain ⟨hx, hn⟩ := State.title?_eq_some hfind
    exact congrArg some (List.inj_on_of_nodup_map hnodup hx he hn)

theorem State.updateTitle_titles_congr {s t : State} (h : t.titles = s.titles) (n : BitVec 16) (f : TitleEntry → TitleEntry) :
    (t.updateTitle n f).titles = (s.updateTitle n f).titles := by
  simp only [State.updateTitle, h]

/-- The meter's action on an entry, which no row of its own is, changes that entry alone. -/
theorem State.meterEntry_titles {s : State} {e : TitleEntry} (hnodup : (s.titles.map TitleEntry.number).Nodup)
    (he : s.title? e.number = some e) : (s.meterEntry e).titles = (s.updateTitle e.number s.metered).titles := by
  unfold State.meterEntry State.clearSeen
  by_cases hcounts : s.counts e = true
  · have hentry : TitleEntry.unseen e.counted = s.metered e := by rw [State.metered, if_pos hcounts]
    rw [if_pos hcounts, State.updateTitle_titles_congr (s.countPreview_titles e),
      s.updateTitle_updateTitle e.number (f := TitleEntry.counted) _ fun _ => rfl, State.updateTitle_congr hnodup he hentry]
  · have hentry : e.unseen = s.metered e := by rw [State.metered, if_neg hcounts]
    rw [if_neg hcounts, State.updateTitle_congr hnodup he hentry]

theorem State.meterEntry_handsReports (s : State) (e : TitleEntry) :
    HandsReports s (s.meterEntry e) (([e].filter s.starts).map TitleEntry.startReport) := by
  change HandsReports s (if s.counts e then s.countPreview e else s) _
  by_cases hcounts : s.counts e = true
  · rw [if_pos hcounts]
    unfold State.countPreview
    by_cases hoffered : e.state = .offered
    · rw [List.filter_singleton, if_pos hoffered, State.starts, hcounts, hoffered]
      exact State.hand_handsReports (s.updateTitle e.number TitleEntry.counted) _
    · rw [List.filter_singleton, if_neg hoffered, State.starts, beq_eq_false_iff_ne.mpr hoffered, Bool.and_false]
      exact .none rfl rfl
  · rw [List.filter_singleton, if_neg hcounts, State.starts, Bool.eq_false_iff.mpr hcounts, Bool.false_and]
    exact .none rfl rfl

/-- The meter goes on over these entries of the table without a row of its own. -/
structure State.MeterGoes (s : State) (es : List TitleEntry) : Prop where
  nodup : (s.titles.map TitleEntry.number).Nodup
  mem : ∀ e ∈ es, e ∈ s.titles
  distinct : (es.map TitleEntry.number).Nodup
  goes : ∀ e ∈ es, ¬ s.meterStops e = true

theorem State.counts_congr {s t : State} (h : t.stay = s.stay) : t.counts = s.counts := by
  unfold State.counts
  rw [h]

theorem State.meterStops_congr {s t : State} (h : t.stay = s.stay) : t.meterStops = s.meterStops := by
  unfold State.meterStops State.rentalDue
  rw [State.counts_congr h, h]

theorem State.meterEntry_stay (s : State) (e : TitleEntry) : (s.meterEntry e).stay = s.stay := by
  rw [(s.meterEntry_workOnly e).eq]

theorem State.MeterGoes.tail {s : State} {e : TitleEntry} {es : List TitleEntry} (h : s.MeterGoes (e :: es)) :
    (s.meterEntry e).MeterGoes es := by
  obtain ⟨hnodup, hmem, hdistinct, hgoes⟩ := h
  obtain ⟨he, hmem⟩ := List.forall_mem_cons.mp hmem
  obtain ⟨-, hgoes⟩ := List.forall_mem_cons.mp hgoes
  obtain ⟨hfresh, hdistinct⟩ := List.nodup_cons.mp hdistinct
  obtain ⟨-, -, -, hnumbers⟩ := s.meterEntry_leaves e
  refine ⟨hnumbers ▸ hnodup, fun x hx => ?_, hdistinct, ?_⟩
  · have hne : x.number ≠ e.number := fun hn => hfresh (hn ▸ List.mem_map_of_mem hx)
    rw [State.meterEntry_titles hnodup (State.title?_of_mem hnodup he)]
    exact List.mem_map.mpr ⟨x, hmem x hx, by simp [hne]⟩
  · rw [State.meterStops_congr (s.meterEntry_stay e)]
    exact hgoes

/-- A change of one entry and then of others is a change of them all. -/
theorem State.map_metered_cons {s : State} {e : TitleEntry} {ns : List (BitVec 16)} (h : e.number ∉ ns) :
    (s.updateTitle e.number s.metered).titles.map (fun x => if x.number ∈ ns then s.metered x else x) =
      s.titles.map (fun x => if x.number ∈ e.number :: ns then s.metered x else x) := by
  simp only [State.updateTitle, List.map_map]
  refine List.map_congr_left fun x _ => ?_
  by_cases hx : x.number = e.number
  · simp [hx, s.metered_number, h]
  · simp [hx]

/-- A meter that stops nowhere acts on every entry in turn and has nothing outstanding. -/
theorem State.MeterGoes.run {es : List TitleEntry} : ∀ {s : State}, s.MeterGoes es →
    let t := State.meterRun (es.map TitleEntry.number) s
    t.tick = { s.tick with meter := [] } ∧ HandsReports s t ((es.filter s.starts).map TitleEntry.startReport) ∧
      t.titles = s.titles.map (fun x => if x.number ∈ es.map TitleEntry.number then s.metered x else x) := by
  induction es with
  | nil => exact fun {s} _ => ⟨rfl, .none rfl rfl, by simp [State.meterRun]⟩
  | cons e es ih =>
    intro s h
    have he := State.title?_of_mem h.nodup (h.mem e List.mem_cons_self)
    obtain ⟨hfresh, -⟩ := List.nodup_cons.mp h.distinct
    obtain ⟨htick, hreports, htitles⟩ := ih h.tail
    have hcounts := State.counts_congr (s.meterEntry_stay e)
    have hstarts : (s.meterEntry e).starts = s.starts := by unfold State.starts; rw [hcounts]
    have hmetered : (s.meterEntry e).metered = s.metered := by unfold State.metered; rw [hcounts]
    intro t
    have ht : t = State.meterRun (es.map TitleEntry.number) (s.meterEntry e) :=
      State.meterRun_acts he (h.goes e List.mem_cons_self)
    rw [hstarts] at hreports
    rw [hmetered, State.meterEntry_titles h.nodup he, State.map_metered_cons hfresh] at htitles
    rw [ht]
    refine ⟨htick.trans (by rw [State.meterEntry_tick]), ?_, htitles⟩
    have hall := (s.meterEntry_handsReports e).trans hreports
    rwa [← List.map_append, ← List.filter_append] at hall

end Sys2Proof.Machine

namespace Sys2Proof.Proofs
open Sys2Proof Sys2Proof.Machine

/-- Settles O48: how the tick begins, and a meter that stops nowhere, by induction on the entries before it. -/
theorem aSecondsTickAdvancesStayAndMeter : Obligations.ASecondsTickAdvancesStayAndMeter := by
  unfold Obligations.ASecondsTickAdvancesStayAndMeter
  refine ⟨fun s htick hw => ⟨s.tickBegun, s.tickBegun_eq, fun hlift hlockout => ?_, fun h => ?_⟩, fun u hnodup hm => ?_⟩
  · have hquiet : ¬ s.beginTick.tick.lockReports = true := by simp [s.lockReports_beginTick, hlift, hlockout]
    rw [exec_secondsTick_of_working htick hw, State.secondsTickStep_of_quiet hquiet]
    exact ⟨by rw [State.tickBegun, if_neg hquiet]; rfl, rfl⟩
  · rw [exec_secondsTick_of_working htick hw]
    exact (State.secondsTickStep_of_reports (s.lockReports_beginTick.mpr h)).imp (congrArg _) (congrArg _)
  · intro counted hgoes started
    have hcounted : counted = u.counts := by
      funext e
      rw [Bool.eq_iff_iff, u.counts_iff]
      simp [counted, and_assoc]
    have hall : u.MeterGoes u.titles.reverse := by
      refine ⟨hnodup, fun e he => List.mem_reverse.mp he, by rwa [List.map_reverse, List.nodup_reverse], fun e he => ?_⟩
      obtain ⟨hlimit, hrental⟩ := hgoes e (List.mem_reverse.mp he)
      rw [State.meterStops, Bool.or_eq_true, Bool.and_eq_true, Bool.and_eq_true, e.atEnd_iff, u.rentalDue_iff]
      rintro (⟨hcounts, hend⟩ | ⟨⟨second, sequence, hstate, hy, hdue⟩, hseen⟩)
      · exact hlimit (hcounted ▸ hcounts) hend
      · exact Nat.not_lt.mpr hdue (hrental second sequence hstate hy (Bool.not_eq_true' _ ▸ hseen))
    have hrun : u.runMeter = State.meterRun (u.titles.reverse.map TitleEntry.number) u := by rw [State.runMeter, hm]
    obtain ⟨htick, hreports, htitles⟩ := hall.run
    have hstarted : started = (u.titles.reverse.filter u.starts).map TitleEntry.startReport := by
      simp only [started, hcounted]
      rfl
    rw [hrun, hstarted]
    refine ⟨_, _, _, htick ▸ State.meterRun_eq _ u, ?_, hreports⟩
    rw [htitles]
    refine List.map_congr_left fun e he => ?_
    rw [if_pos (by rw [List.map_reverse, List.mem_reverse]; exact List.mem_map_of_mem he), hcounted]
    rfl

end Sys2Proof.Proofs
end

section
namespace Sys2Proof.Machine

/-! ## The ceilings by the stay and the lift (R84) -/

section
variable {s : State}

theorem State.liftActive_standing (h : 0 < s.lock.lift) : s.liftActive = true := decide_eq_true h

theorem State.liftActive_none (h : s.lock.lift = 0) : ¬ s.liftActive = true := by
  simp [State.liftActive, h]

/-- Outside OCCUPIED both ceilings are the house ceiling. -/
theorem State.ceilings_unoccupied (h : s.stay.state ≠ .occupied) :
    s.effectiveCeiling = s.tariff.houseCeiling ∧ s.unliftedCeiling = s.tariff.houseCeiling := by
  unfold State.effectiveCeiling State.unliftedCeiling
  cases hy : s.stay.state with
  | vacant => exact ⟨rfl, rfl⟩
  | occupied => exact absurd hy h
  | closing => exact ⟨rfl, rfl⟩

variable (hy : s.stay.state = .occupied)
include hy

theorem State.unliftedCeiling_occupied : s.unliftedCeiling = s.stay.ceiling := by
  rw [State.unliftedCeiling, hy]

theorem State.effectiveCeiling_occupied :
    s.effectiveCeiling = if s.liftActive then s.tariff.siteClamp else s.stay.ceiling := by
  rw [State.effectiveCeiling, hy]

theorem State.effectiveCeiling_unlifted (h : s.lock.lift = 0) : s.effectiveCeiling = s.stay.ceiling :=
  (State.effectiveCeiling_occupied hy).trans (if_neg (State.liftActive_none h))

theorem State.effectiveCeiling_lifted (h : 0 < s.lock.lift) : s.effectiveCeiling = s.tariff.siteClamp :=
  (State.effectiveCeiling_occupied hy).trans (if_pos (State.liftActive_standing h))

end

/-- Each of the three ceilings that can be the effective one is within the site clamp (R83). -/
theorem State.effectiveCeiling_le_siteClamp {s : State} (hsafe : LockSafe s) : s.effectiveCeiling ≤ s.tariff.siteClamp := by
  obtain ⟨-, -, -, -, -, -, hguest, -, hhouse, -⟩ := hsafe
  by_cases hy : s.stay.state = .occupied
  · rcases Nat.eq_zero_or_pos s.lock.lift with hlift | hlift
    · rwa [State.effectiveCeiling_unlifted hy hlift]
    · rw [State.effectiveCeiling_lifted hy hlift]
  · obtain ⟨heffective, -⟩ := State.ceilings_unoccupied hy
    rwa [heffective]

/-! ## A command taken only in an OCCUPIED stay -/

section
variable {s : State} {run : State → State × Answer}

theorem State.inStay_vacant (hy : s.stay.state = .vacant) : s.inStay run = (s, .noStay, .absent) := by
  rw [State.inStay, hy]

theorem State.inStay_closing (hy : s.stay.state = .closing) : s.inStay run = (s, .closing, .absent) := by
  rw [State.inStay, hy]

theorem State.inStay_occupied (hy : s.stay.state = .occupied) : s.inStay run = run s := by
  rw [State.inStay, hy]

end

/-! ## The PIN comparison (R85 to R87) -/

section
variable {s : State} {p : PinField} {matched : State → State × Answer}

theorem State.comparePin_lockedOut (h : 0 < s.lock.lockout) :
    s.comparePin p matched = (s, .lockedOut, .lockedOut s.lock.lockout) := if_pos h

variable (h0 : s.lock.lockout = 0)
include h0

theorem State.comparePin_match (hp : s.lock.pin = some (pinDigits p)) :
    s.comparePin p matched = matched { s with lock := { s.lock with tries := 0 } } :=
  (if_neg (Nat.not_lt.mpr h0.le)).trans (if_pos (beq_iff_eq.mpr hp))

theorem State.comparePin_wrong (hp : s.lock.pin ≠ some (pinDigits p)) : s.comparePin p matched = s.wrongPin :=
  (if_neg (Nat.not_lt.mpr h0.le)).trans (if_neg (mt beq_iff_eq.mp hp))

end

/-- A wrong try below the third counts (R87). -/
theorem State.wrongPin_counts {s : State} (h : s.lock.tries < 2) :
    s.wrongPin =
      ({ s with lock := { s.lock with tries := s.lock.tries + 1 } }, .pinWrong, .triesLeft (2 - s.lock.tries)) := by
  have hleft : 3 - (s.lock.tries + 1) = 2 - s.lock.tries := Nat.add_sub_add_right 2 1 s.lock.tries
  rw [State.wrongPin, if_pos (by omega), hleft]

/-- The third wrong try starts a lockout (R87). -/
theorem State.wrongPin_locksOut {s : State} (h : 2 ≤ s.lock.tries) :
    s.wrongPin =
      ({ s with lock := { s.lock with tries := 0, lockout := 900 } }.raiseEvent (.lockoutStarted 900), .pinWrong, .triesLeft 0) :=
  if_neg (by omega)

/-- A command that answers by a PIN comparison makes a wrong try where the PIN does not match (R86, R87). -/
theorem wrongTry_of_comparePin {c : Instr} {tag : Word} {code : Byte} {s : State} {p : PinField}
    {matched : State → State × Answer} (hanswer : ∀ {u a}, s.comparePin p matched = (u, a) → Answers c tag code s u a)
    (h0 : s.lock.lockout = 0) (hp : s.lock.pin ≠ some (pinDigits p)) : WrongTry c tag code s :=
  have hwrong := State.comparePin_wrong h0 hp
  ⟨fun h => hanswer (hwrong.trans (State.wrongPin_counts h)), fun h => hanswer (hwrong.trans (State.wrongPin_locksOut h))⟩

/-! ## UNLOCK (R90) -/

theorem State.runUnlock_badFormat {s : State} {p : PinField} (h : pinWellFormed p = false) :
    s.runUnlock p = (s, .badFormat, .absent) := if_pos h

theorem State.runUnlock_formed {s : State} {p : PinField} (h : pinWellFormed p = true) :
    s.runUnlock p = s.inStay (fun s => s.comparePin p State.startLift) := if_neg (ne_false_of_eq_true h)

/-! ## SET_CEILING (R83, R94) -/

/-- A match of a raising SET_CEILING sets the guest ceiling (R94). -/
def State.raiseCeiling (ceiling : Byte) (s : State) : State × Answer := s.setGuestCeiling (s.clampCeiling ceiling)

section
variable {s : State} {ceiling : Byte} {p : PinField}

theorem State.runSetCeiling_badCeiling (h : 7 < ceiling.toNat) :
    s.runSetCeiling ceiling p = (s, .badFormat, .absent) := if_pos h

variable (h7 : ceiling.toNat ≤ 7)
include h7

theorem State.runSetCeiling_vacant (hy : s.stay.state = .vacant) :
    s.runSetCeiling ceiling p = (s, .noStay, .absent) :=
  (if_neg (Nat.not_lt.mpr h7)).trans (State.inStay_vacant hy)

theorem State.runSetCeiling_closing (hy : s.stay.state = .closing) :
    s.runSetCeiling ceiling p = (s, .closing, .absent) :=
  (if_neg (Nat.not_lt.mpr h7)).trans (State.inStay_closing hy)

variable (hy : s.stay.state = .occupied)
include hy

/-- A ceiling at or below the guest ceiling is set without the PIN. -/
theorem State.runSetCeiling_lowers (hle : s.clampCeiling ceiling ≤ s.stay.ceiling) :
    s.runSetCeiling ceiling p = s.setGuestCeiling (s.clampCeiling ceiling) :=
  (if_neg (Nat.not_lt.mpr h7)).trans ((State.inStay_occupied hy).trans (if_pos hle))

variable (hlt : s.stay.ceiling < s.clampCeiling ceiling)
include hlt

theorem State.runSetCeiling_badPin (hp : pinWellFormed p = false) :
    s.runSetCeiling ceiling p = (s, .badFormat, .absent) :=
  (if_neg (Nat.not_lt.mpr h7)).trans
    ((State.inStay_occupied hy).trans ((if_neg (Nat.not_le.mpr hlt)).trans (if_pos hp)))

/-- A raise of the guest ceiling goes by the PIN. -/
theorem State.runSetCeiling_raises (hp : pinWellFormed p = true) :
    s.runSetCeiling ceiling p = s.comparePin p (State.raiseCeiling ceiling) :=
  (if_neg (Nat.not_lt.mpr h7)).trans
    ((State.inStay_occupied hy).trans ((if_neg (Nat.not_le.mpr hlt)).trans (if_neg (ne_false_of_eq_true hp))))

end

/-! ## CHANGE_PIN and RELOCK (R92, R93, R95) -/

/-- A match of CHANGE_PIN replaces the stored PIN (R95). -/
def State.replacePin (new : PinField) (s : State) : State × Answer :=
  ({ s with lock := { s.lock with pin := some (pinDigits new) } }, .done, .absent)

section
variable {s : State} {old new : PinField}

theorem State.runChangePin_badFormat (h : ¬ (pinWellFormed old = true ∧ pinWellFormed new = true)) :
    s.runChangePin old new = (s, .badFormat, .absent) :=
  if_pos (by simpa only [not_and_or, Bool.not_eq_true] using h)

theorem State.runChangePin_formed (h : pinWellFormed old = true ∧ pinWellFormed new = true) :
    s.runChangePin old new = s.inStay (fun s => s.comparePin old (State.replacePin new)) :=
  if_neg (by simp [h])

end

section
variable {s : State} (hy : s.stay.state = .occupied)
include hy

theorem State.runRelock_already (h : s.lock.lift = 0) : s.runRelock = (s, .already, .absent) :=
  (State.inStay_occupied hy).trans (if_neg (State.liftActive_none h))

theorem State.runRelock_ends (h : 0 < s.lock.lift) : s.runRelock = (s.endLift .relock, .done, .absent) :=
  (State.inStay_occupied hy).trans (if_pos (State.liftActive_standing h))

end

/-! ## CLOSE_STAY (R92, R121, R135) -/

section
variable {s : State}

theorem State.beginClose_unlifted (h : s.lock.lift = 0) : s.beginClose =
    { s with charges := s.charges.issue s.closeRecord, stay := { s.stay with state := .closing } } := by
  rw [State.beginClose, if_neg (State.liftActive_none h)]

/-- LIFT_ENDED may be raised before or after the CLOSE record is issued. -/
theorem State.beginClose_lifted (h : 0 < s.lock.lift) : s.beginClose =
    { s with
      charges := s.charges.issue s.closeRecord
      stay := { s.stay with state := .closing }
      lock := { s.lock with lift := 0 } }.raiseEvent (.liftEnded .close) := by
  rw [State.beginClose, if_pos (State.liftActive_standing h), State.endLift]
  simp only [State.raiseEvent, State.hand_eq]
  rfl

theorem State.runCloseStay_vacant (hy : s.stay.state = .vacant) : s.runCloseStay = (s, .noStay, .absent) := by
  rw [State.runCloseStay, hy]

theorem State.runCloseStay_closing (hy : s.stay.state = .closing) : s.runCloseStay = (s, .already, .absent) := by
  rw [State.runCloseStay, hy]

theorem State.runCloseStay_closes (hy : s.stay.state = .occupied) : s.runCloseStay =
    (s.beginClose, .done,
      .closeStay (s.charges.lastIssued + 1) s.charges.netTotal s.charges.taxTotal s.charges.count) := by
  rw [State.runCloseStay, hy]

end

end Sys2Proof.Machine

namespace Sys2Proof.Proofs
open Sys2Proof Sys2Proof.Machine

/-- Settles O23, by the stay state and the lift. -/
theorem theEffectiveCeilingFollowsTheStay : Obligations.TheEffectiveCeilingFollowsTheStay := by
  unfold Obligations.TheEffectiveCeilingFollowsTheStay
  exact fun s => ⟨State.ceilings_unoccupied,
    fun hy hlift => ⟨State.effectiveCeiling_unlifted hy hlift, State.unliftedCeiling_occupied hy⟩,
    fun hy hlift => ⟨State.effectiveCeiling_lifted hy hlift, State.unliftedCeiling_occupied hy⟩,
    State.effectiveCeiling_le_siteClamp⟩

/-- Settles O32, by the stay state and, in OCCUPIED, by whether a lift stands. -/
theorem closeStayIssuesTheCloseRecord : Obligations.CloseStayIssuesTheCloseRecord := by
  unfold Obligations.CloseStayIssuesTheCloseRecord
  intro tag s htakes c
  have hanswer : ∀ {u a}, s.runCloseStay = (u, a) → Answers c tag 0x04 s u a := answers_of_takes (exec_closeStay tag s) htakes
  refine ⟨fun hy => hanswer (State.runCloseStay_vacant hy), fun hy => hanswer (State.runCloseStay_closing hy), fun hy => ?_⟩
  intro record closed answer
  have hcloses : ∀ {u}, s.beginClose = u → Answers c tag 0x04 s u answer := fun hu =>
    hanswer (hu ▸ State.runCloseStay_closes hy)
  exact ⟨fun hlift => hcloses (State.beginClose_unlifted hlift), fun hlift => hcloses (State.beginClose_lifted hlift)⟩

/-- Settles O39: the format, the stay, and then the PIN comparison. -/
theorem unlockFollowsItsFiveTests : Obligations.UnlockFollowsItsFiveTests := by
  unfold Obligations.UnlockFollowsItsFiveTests
  intro tag pin s htakes c own
  have hanswer : ∀ {u a}, s.runUnlock pin = (u, a) → Answers c tag 0x0C s u a :=
    answers_of_takes (exec_unlock tag pin s) htakes
  have hcompare : pinWellFormed pin = true → s.stay.state = .occupied →
      ∀ {u a}, s.comparePin pin State.startLift = (u, a) → Answers c tag 0x0C s u a := fun hf hy _ _ h =>
    hanswer ((State.runUnlock_formed hf).trans ((State.inStay_occupied hy).trans h))
  exact ⟨fun hf => hanswer (State.runUnlock_badFormat hf),
    fun hf hy => hanswer ((State.runUnlock_formed hf).trans (State.inStay_vacant hy)),
    fun hf hy => hanswer ((State.runUnlock_formed hf).trans (State.inStay_closing hy)),
    fun hf hy hout => hcompare hf hy (State.comparePin_lockedOut hout),
    fun hf hy h0 hp => wrongTry_of_comparePin (hcompare hf hy) h0 hp,
    fun hf hy h0 hp => hcompare hf hy (State.comparePin_match h0 hp)⟩

/-- Settles O40: the format, the stay, a ceiling set without the PIN, and the PIN comparison of a raise. -/
theorem setCeilingNeedsThePinOnlyToRaise : Obligations.SetCeilingNeedsThePinOnlyToRaise := by
  unfold Obligations.SetCeilingNeedsThePinOnlyToRaise
  intro tag ceiling pin s htakes c g own raise
  have hanswer : ∀ {u a}, s.runSetCeiling ceiling pin = (u, a) → Answers c tag 0x0E s u a :=
    answers_of_takes (exec_setCeiling tag ceiling pin s) htakes
  have hcompare : raise → pinWellFormed pin = true →
      ∀ {u a}, s.comparePin pin (State.raiseCeiling ceiling) = (u, a) → Answers c tag 0x0E s u a :=
    fun ⟨h7, hy, hlt⟩ hf _ _ h => hanswer ((State.runSetCeiling_raises h7 hy hlt hf).trans h)
  exact ⟨fun h => hanswer (State.runSetCeiling_badCeiling h), fun h7 hy => hanswer (State.runSetCeiling_vacant h7 hy),
    fun h7 hy => hanswer (State.runSetCeiling_closing h7 hy), fun h7 hy hle => hanswer (State.runSetCeiling_lowers h7 hy hle),
    fun ⟨h7, hy, hlt⟩ hf => hanswer (State.runSetCeiling_badPin h7 hy hlt hf),
    fun hr hf hout => hcompare hr hf (State.comparePin_lockedOut hout),
    fun hr hf h0 hp => wrongTry_of_comparePin (hcompare hr hf) h0 hp,
    fun hr hf h0 hp => hcompare hr hf (State.comparePin_match h0 hp)⟩

/-- Settles O41: CHANGE_PIN by its format, the stay and the PIN comparison; RELOCK by the stay and the lift. -/
theorem changePinAndRelockComplete : Obligations.ChangePinAndRelockComplete := by
  unfold Obligations.ChangePinAndRelockComplete
  refine fun tag old new s => ⟨fun htakes => ?_, fun htakes => ?_⟩
  · intro c formed own
    have hanswer : ∀ {u a}, s.runChangePin old new = (u, a) → Answers c tag 0x0F s u a :=
      answers_of_takes (exec_changePin tag old new s) htakes
    have hcompare : formed → s.stay.state = .occupied →
        ∀ {u a}, s.comparePin old (State.replacePin new) = (u, a) → Answers c tag 0x0F s u a := fun hf hy _ _ h =>
      hanswer ((State.runChangePin_formed hf).trans ((State.inStay_occupied hy).trans h))
    exact ⟨fun hf => hanswer (State.runChangePin_badFormat hf),
      fun hf hy => hanswer ((State.runChangePin_formed hf).trans (State.inStay_vacant hy)),
      fun hf hy => hanswer ((State.runChangePin_formed hf).trans (State.inStay_closing hy)),
      fun hf hy hout => hcompare hf hy (State.comparePin_lockedOut hout),
      fun hf hy h0 hp => wrongTry_of_comparePin (hcompare hf hy) h0 hp,
      fun hf hy h0 hp => hcompare hf hy (State.comparePin_match h0 hp)⟩
  · intro c
    have hanswer : ∀ {u a}, s.runRelock = (u, a) → Answers c tag 0x0D s u a := answers_of_takes (exec_relock tag s) htakes
    exact ⟨fun hy => hanswer (State.inStay_vacant hy), fun hy => hanswer (State.inStay_closing hy),
      fun hy hlift => hanswer (State.runRelock_already hy hlift), fun hy hlift => hanswer (State.runRelock_ends hy hlift)⟩

end Sys2Proof.Proofs
end

section
namespace Sys2Proof.Machine

/-! ## The flags, the first read and the seen mark of a judgement (R27, R105, R108) -/

section
variable (s : State) (b : Binding) {e : Entry} (payload : Bool) (hs : e.state ≠ .empty)
include hs

/-- LOST, REREAD and the first read go by the state of the entry alone, whatever its kind. -/
theorem State.judge_entryState :
    (s.judge b e payload).flags.lost = e.lostBefore ∧ (s.judge b e payload).flags.reread = (e.state == .read) ∧
      (s.judge b e payload).firstRead = (payload && e.state == .written) := by
  rcases Entry.written_or_read hs with h | h <;> cases hk : e.kind <;> simp [State.judge, h, hk]

theorem State.judge_nopicture_iff :
    (s.judge b e payload).flags.nopicture = true ↔ e.kind = .control ∨ e.kind = .filler := by
  rcases Entry.written_or_read hs with h | h <;> cases hk : e.kind <;> simp [State.judge, h, hk, VerdictFlags.none]

/-- A cell of no picture carries neither PREVIEW nor LIFTED (R105). -/
theorem State.judge_notPicture_flags (hk : e.kind ≠ .picture) :
    (s.judge b e payload).flags.preview = false ∧ (s.judge b e payload).flags.lifted = false := by
  rcases Entry.written_or_read hs with h | h <;> cases hkind : e.kind with
  | picture => exact absurd hkind hk
  | control => simp [State.judge, h, hkind, VerdictFlags.none]
  | filler => simp [State.judge, h, hkind, VerdictFlags.none]
  | bad => simp [State.judge, h, hkind, VerdictFlags.none]

section
variable (hk : e.kind = .picture)
include hk

theorem State.judge_picture_preview : (s.judge b e payload).flags.preview = true ↔
    (s.judge b e payload).reason.shown = true ∧
      ∃ t, s.title? e.title = some t ∧ (t.state = .offered ∨ t.state = .preview) := by
  simp only [← TitleEntry.previewing_iff]
  rcases Entry.written_or_read hs with h | h <;> cases ht : s.title? e.title <;> simp [State.judge, h, hk, ht]

theorem State.judge_picture_lifted : (s.judge b e payload).flags.lifted = true ↔
    (s.judge b e payload).reason.shown = true ∧ s.unliftedCeiling < e.rating := by
  rcases Entry.written_or_read hs with h | h <;> simp [State.judge, h, hk]

theorem State.judge_picture_mark : (s.judge b e payload).mark =
    if (s.judge b e payload).firstRead && (s.judge b e payload).reason.shown then some (e.title, b.role) else none := by
  rcases Entry.written_or_read hs with h | h <;> simp [State.judge, h, hk]

end

theorem State.judge_preview_iff : (s.judge b e payload).flags.preview = true ↔
    e.kind = .picture ∧ (s.judge b e payload).reason.shown = true ∧
      ∃ t, s.title? e.title = some t ∧ (t.state = .offered ∨ t.state = .preview) := by
  by_cases hk : e.kind = .picture
  · simp only [s.judge_picture_preview b payload hs hk, hk, true_and]
  · simp [s.judge_notPicture_flags b payload hs hk, hk]

theorem State.judge_lifted_iff : (s.judge b e payload).flags.lifted = true ↔
    e.kind = .picture ∧ (s.judge b e payload).reason.shown = true ∧ s.unliftedCeiling < e.rating := by
  by_cases hk : e.kind = .picture
  · simp only [s.judge_picture_lifted b payload hs hk, hk, true_and]
  · simp [s.judge_notPicture_flags b payload hs hk, hk]

/-- Only the first read of a shown picture hands a seen mark: its title, for the role of the lane (R108). -/
theorem State.judge_mark_iff (m : BitVec 16 × Role) : (s.judge b e payload).mark = some m ↔
    m = (e.title, b.role) ∧ e.kind = .picture ∧ (s.judge b e payload).reason.shown = true ∧
      (s.judge b e payload).firstRead = true := by
  by_cases hk : e.kind = .picture
  · rw [s.judge_picture_mark b payload hs hk, Option.ite_none_right_eq_some, Bool.and_eq_true]
    simp only [hk, true_and, Option.some.injEq, eq_comm (a := m), and_comm]
  · simp [s.judge_zeros b payload hs hk, hk]

end

/-! ## The bits of the verdict byte (R107, section 12.1) -/

theorem flagBit_le (b : Bool) : flagBit b ≤ 1 := by
  cases b <;> decide

/-- The codes of section 7.2 number the reasons in the order of its table. -/
theorem reasonCode_eq_idxOf (r : Reason) : reasonCode r =
    [Reason.shownClear, .shownOpened, .heldRating, .heldUnpaid, .heldNokey, .heldStale, .heldUnderrun, .heldNotcell].idxOf r := by
  cases r <;> rfl

theorem reasonCode_lt (r : Reason) : reasonCode r < 8 := by
  cases r <;> decide

/-- Each field of the byte is within its width: three bits for the reason, one for each flag. -/
theorem verdictFields_le (r : Reason) (f : VerdictFlags) : reasonCode r < 8 ∧ flagBit f.lost ≤ 1 ∧ flagBit f.preview ≤ 1 ∧
    flagBit f.lifted ≤ 1 ∧ flagBit f.nopicture ≤ 1 ∧ flagBit f.reread ≤ 1 :=
  ⟨reasonCode_lt r, flagBit_le _, flagBit_le _, flagBit_le _, flagBit_le _, flagBit_le _⟩

/-- The bit of a byte at which the number it holds carries a flag. -/
theorem getLsbD_eq_of_flagBit {x : Byte} {i : Nat} {b : Bool} (h : x.toNat / 2 ^ i % 2 = flagBit b) : x.getLsbD i = b := by
  rw [BitVec.getLsbD, Nat.testBit_eq_decide_div_mod_eq, h]
  cases b <;> rfl

/-- The sum of the reason's code and the flags' weights fits in the byte. -/
theorem verdictByte_toNat (r : Reason) (f : VerdictFlags) : (verdictByte r f).toNat =
    reasonCode r + 8 * flagBit f.lost + 16 * flagBit f.preview + 32 * flagBit f.lifted + 64 * flagBit f.nopicture +
      128 * flagBit f.reread := by
  have hfields := verdictFields_le r f
  rw [verdictByte, BitVec.toNat_ofNat]
  exact Nat.mod_eq_of_lt (by omega)

theorem verdictByte_reason (r : Reason) (f : VerdictFlags) : ((verdictByte r f).extractLsb' 0 3).toNat = reasonCode r := by
  have hfields := verdictFields_le r f
  rw [BitVec.extractLsb'_toNat, verdictByte_toNat, Nat.shiftRight_zero]
  omega

/-- Each flag stands in its own bit above the reason. -/
theorem verdictByte_flags (r : Reason) (f : VerdictFlags) :
    (verdictByte r f).getLsbD 3 = f.lost ∧ (verdictByte r f).getLsbD 4 = f.preview ∧ (verdictByte r f).getLsbD 5 = f.lifted ∧
      (verdictByte r f).getLsbD 6 = f.nopicture ∧ (verdictByte r f).getLsbD 7 = f.reread := by
  have hfields := verdictFields_le r f
  have hbyte := verdictByte_toNat r f
  exact ⟨getLsbD_eq_of_flagBit (by omega), getLsbD_eq_of_flagBit (by omega), getLsbD_eq_of_flagBit (by omega),
    getLsbD_eq_of_flagBit (by omega), getLsbD_eq_of_flagBit (by omega)⟩

end Sys2Proof.Machine

namespace Sys2Proof.Proofs
open Sys2Proof Sys2Proof.Machine

/-- Settles O25: the flags and the mark of a judgement one by one, and the fields of the byte that presents them. -/
theorem verdictFlagsAndTheVerdictByte : Obligations.VerdictFlagsAndTheVerdictByte := by
  unfold Obligations.VerdictFlagsAndTheVerdictByte
  refine ⟨?judgement, fun r f => ⟨?reason, verdictByte_flags r f⟩, fun j x => ?header⟩
  case judgement =>
    intro s b e payload hs j
    obtain ⟨hlost, hreread, hfirst⟩ := s.judge_entryState b payload hs
    have hreread_iff : j.flags.reread = true ↔ e.state = .read := by rw [hreread, beq_iff_eq]
    have hfirst_iff : j.firstRead = true ↔ payload = true ∧ e.state = .written := by rw [hfirst, Bool.and_eq_true, beq_iff_eq]
    exact ⟨hlost, hreread_iff, s.judge_nopicture_iff b payload hs, s.judge_preview_iff b payload hs,
      s.judge_lifted_iff b payload hs, hfirst_iff, s.judge_mark_iff b payload hs⟩
  case reason => rw [verdictByte_reason, reasonCode_eq_idxOf]
  case header => exact ⟨byteOf_be32_0 .., byteOf_be32_1 .., byteOf_be32_2 .., byteOf_be32_3 ..⟩

end Sys2Proof.Proofs
end

section
/-! # What a step can do to the charges

The items that ChargeListSafe and CreditSafe rest on are the account's view of the state. Every event but a decay of the retained
store keeps both invariants (`exec_accountKept`). A step that ends in a part that stands by its retained items is one of few
(`trustedStep_of_step`), and a decay among them finds no LOG write in progress. -/

namespace Sys2Proof.Machine

/-! ## The charge list (R119, R120, R124) -/

/-- The charge unit's list is in order for a stay state (R119, R124). -/
structure ChargeUnit.InOrder (c : ChargeUnit) (y : StayState) : Prop where
  acked : c.acknowledged ≤ c.lastIssued
  sequences : c.list.map (fun i => i.record.sequence) = List.range' (c.acknowledged + 1) (c.lastIssued - c.acknowledged)
  fits : c.fits y
  flags : writtenFirst c.list = true
  write : ∀ w, c.write = some w → w.listed = true → c.nextUnwritten = some w.record

theorem chargeListSafe_iff {s : State} : ChargeListSafe s ↔ s.charges.InOrder s.stay.state :=
  ⟨fun ⟨ha, hs, hf, hw, hx⟩ => ⟨ha, hs, hf, hw, hx⟩, fun ⟨ha, hs, hf, hw, hx⟩ => ⟨ha, hs, hf, hw, hx⟩⟩

/-- The written records form the head of a list exactly when it is made of written records and then of unwritten ones. -/
theorem writtenFirst_iff {l : List ChargeItem} : writtenFirst l = true ↔
    ∃ done due, l = done ++ due ∧ (∀ i ∈ done, i.written = true) ∧ ∀ i ∈ due, i.written = false := by
  induction l with
  | nil => exact iff_of_true rfl ⟨[], [], rfl, nofun, nofun⟩
  | cons i rest ih =>
    cases hi : i.written with
    | true =>
      simp only [writtenFirst, hi, if_true, ih]
      constructor
      · rintro ⟨done, due, rfl, hdone, hdue⟩
        exact ⟨i :: done, due, rfl, List.forall_mem_cons.mpr ⟨hi, hdone⟩, hdue⟩
      · rintro ⟨_ | ⟨j, done⟩, due, h, hdone, hdue⟩
        · obtain rfl : i :: rest = due := h
          simp [hi] at hdue
        · obtain ⟨-, rfl⟩ := List.cons.inj h
          exact ⟨done, due, rfl, (List.forall_mem_cons.mp hdone).2, hdue⟩
    | false =>
      simp only [writtenFirst, hi, Bool.false_eq_true, if_false, List.all_eq_true, Bool.not_eq_true']
      constructor
      · exact fun h => ⟨[], i :: rest, rfl, nofun, List.forall_mem_cons.mpr ⟨hi, h⟩⟩
      · rintro ⟨_ | ⟨j, done⟩, due, h, hdone, hdue⟩
        · obtain rfl : i :: rest = due := h
          exact (List.forall_mem_cons.mp hdue).2
        · obtain ⟨rfl, -⟩ := List.cons.inj h
          simp [hi] at hdone

/-- The oldest unwritten record heads the unwritten ones. -/
theorem ChargeUnit.nextUnwritten_split {c : ChargeUnit} {done due : List ChargeItem} (hl : c.list = done ++ due)
    (hdone : ∀ i ∈ done, i.written = true) (hdue : ∀ i ∈ due, i.written = false) :
    c.nextUnwritten = due.head?.map ChargeItem.record := by
  have hnone : done.find? (fun i => !i.written) = none := by simpa using hdone
  rw [ChargeUnit.nextUnwritten, hl, List.find?_append, hnone, Option.none_or]
  cases due with
  | nil => rfl
  | cons i rest => simp [hdue i (by simp)]

/-- What the list holds in a stay state is a matter of its records and of the numbers issued. -/
theorem ChargeUnit.fits_congr {c d : ChargeUnit} {y : StayState}
    (hrecords : d.list.map ChargeItem.record = c.list.map ChargeItem.record) (hissued : d.lastIssued = c.lastIssued)
    (h : c.fits y) : d.fits y := by
  have hlength : d.list.length = c.list.length := by simpa using congrArg List.length hrecords
  have hkinds : d.list.map ChargeItem.isPurchase = c.list.map ChargeItem.isPurchase := by
    have hkind : ChargeItem.isPurchase = (fun r : ChargeRecord => ChargeItem.isPurchase ⟨r, false⟩) ∘ ChargeItem.record := rfl
    rw [hkind, ← List.map_map, hrecords, List.map_map]
  have hall : ∀ l : List ChargeItem, l.all ChargeItem.isPurchase = (l.map ChargeItem.isPurchase).all id := fun l => by simp
  cases y with
  | vacant => exact hissued.trans h
  | occupied =>
    obtain ⟨hpurchases, hmany, hmax⟩ := h
    exact ⟨by rwa [hall, hkinds, ← hall], hlength.trans_le hmany, hissued.trans_le hmax⟩
  | closing =>
    obtain ⟨hpurchases, hmany, hlast, hmax⟩ := h
    exact ⟨by rwa [hall, List.map_dropLast, hkinds, ← List.map_dropLast, ← hall],
      by rwa [List.length_dropLast, hlength, ← List.length_dropLast], by rwa [← List.getLast?_map, hkinds, List.getLast?_map],
      hissued.trans_le hmax⟩

/-- A list of the same records, its written flags and the LOG write apart, is in order with its written records first. -/
theorem ChargeUnit.InOrder.of_records {c d : ChargeUnit} {y : StayState} (h : c.InOrder y)
    (hrecords : d.list.map ChargeItem.record = c.list.map ChargeItem.record) (hissued : d.lastIssued = c.lastIssued)
    (hacked : d.acknowledged = c.acknowledged) (hflags : writtenFirst d.list = true) (hwrite : d.write = none) :
    d.InOrder y := by
  have hnumbers : d.list.map (fun i => i.record.sequence) = c.list.map fun i => i.record.sequence := by
    simpa only [List.map_map, Function.comp_def] using congrArg (List.map ChargeRecord.sequence) hrecords
  exact ⟨by rw [hissued, hacked]; exact h.acked, by rw [hissued, hacked, hnumbers]; exact h.sequences,
    ChargeUnit.fits_congr hrecords hissued h.fits, hflags, by simp [hwrite]⟩

/-- The sequence numbers of the list are those issued and not acknowledged (R119). -/
theorem ChargeUnit.InOrder.mem_range {c : ChargeUnit} {y : StayState} (h : c.InOrder y) {i : ChargeItem} (hi : i ∈ c.list) :
    c.acknowledged < i.record.sequence ∧ i.record.sequence ≤ c.lastIssued := by
  have hmem := List.mem_map_of_mem (f := fun i : ChargeItem => i.record.sequence) hi
  have hacked := h.acked
  rw [h.sequences, List.mem_range'_1] at hmem
  omega

/-- The record of a listed LOG write is in the list (R124). -/
theorem ChargeUnit.nextUnwritten_mem {c : ChargeUnit} {r : ChargeRecord} (h : c.nextUnwritten = some r) :
    ∃ i ∈ c.list, i.record = r ∧ i.written = false := by
  obtain ⟨i, hi, rfl⟩ := Option.map_eq_some_iff.mp h
  exact ⟨i, List.mem_of_find?_eq_some hi, rfl, by simpa using List.find?_some hi⟩

/-! ### What a CLOSING stay's list holds (R121) -/

theorem ChargeUnit.fits_closing_iff (c : ChargeUnit) : c.fits .closing ↔ ∃ purchases close, c.list = purchases ++ [close] ∧
    purchases.all ChargeItem.isPurchase = true ∧ purchases.length ≤ 15 ∧ close.isPurchase = false ∧
      c.lastIssued ≤ 2 ^ 32 - 1 := by
  unfold ChargeUnit.fits
  constructor
  · rintro ⟨hall, hlen, hlast, hmax⟩
    obtain ⟨close, hclose, hkind⟩ := Option.map_eq_some_iff.mp hlast
    exact ⟨c.list.dropLast, close, (List.dropLast_append_getLast? _ hclose).symm, hall, hlen, hkind, hmax⟩
  · rintro ⟨purchases, close, hl, hall, hlen, hkind, hmax⟩
    simp only [hl, List.dropLast_concat, List.getLast?_concat, Option.map_some, hkind]
    exact ⟨hall, hlen, trivial, hmax⟩

/-! ### Issue, acknowledgement and written flags -/

/-- A record numbered next joins the tail of the list unwritten (R114, R121). -/
theorem ChargeUnit.InOrder.issue {c : ChargeUnit} {y z : StayState} (h : c.InOrder y) {r : ChargeRecord}
    (hr : r.sequence = c.lastIssued + 1) (hfits : (c.issue r).fits z) : (c.issue r).InOrder z := by
  obtain ⟨hacked, hsequences, -, hflags, hwrite⟩ := h
  obtain ⟨done, due, hl, hdone, hdue⟩ := writtenFirst_iff.mp hflags
  refine ⟨hacked.trans (Nat.le_succ _), ?_, hfits, ?_, fun w hw hlisted => ?_⟩
  · have hcount : c.lastIssued + 1 - c.acknowledged = c.lastIssued - c.acknowledged + 1 := by omega
    have hlast : c.acknowledged + 1 + (c.lastIssued - c.acknowledged) = c.lastIssued + 1 := by omega
    simp only [ChargeUnit.issue, List.map_append, List.map_cons, List.map_nil, hsequences, hr, hcount, List.range'_1_concat,
      hlast]
  · refine writtenFirst_iff.mpr ⟨done, due ++ [⟨r, false⟩], ?_, hdone, ?_⟩
    · simp [ChargeUnit.issue, hl]
    · simpa [or_imp, forall_and] using hdue
  · have hnext := hwrite w hw hlisted
    obtain ⟨i, hi, hrecord⟩ := Option.map_eq_some_iff.mp hnext
    rw [ChargeUnit.nextUnwritten, ChargeUnit.issue, List.find?_append, hi, Option.some_or, Option.map_some, hrecord]

/-- The numbers above `ack` of the numbers from `a + 1` to `l` are those from `ack + 1` to `l`. -/
theorem filter_range'_above {a ack l : Nat} (ha : a ≤ ack) (hl : ack ≤ l) :
    (List.range' (a + 1) (l - a)).filter (fun q => decide (ack < q)) = List.range' (ack + 1) (l - ack) := by
  have hsplit : List.range' (a + 1) (l - a) = List.range' (a + 1) (ack - a) ++ List.range' (ack + 1) (l - ack) := by
    have hstart : ack + 1 = a + 1 + (ack - a) := by omega
    have hcount : l - a = (ack - a) + (l - ack) := by omega
    rw [hstart, hcount, List.range'_append_1]
  have hbelow : (List.range' (a + 1) (ack - a)).filter (fun q => decide (ack < q)) = [] := by
    simp only [List.filter_eq_nil_iff, List.mem_range'_1, decide_eq_true_eq]
    omega
  have habove : (List.range' (ack + 1) (l - ack)).filter (fun q => decide (ack < q)) = List.range' (ack + 1) (l - ack) := by
    simp only [List.filter_eq_self, List.mem_range'_1, decide_eq_true_eq]
    omega
  rw [hsplit, List.filter_append, hbelow, habove, List.nil_append]

/-- The records up to an acknowledged number leave the list (R120); the CLOSE record of a CLOSING stay is not among them. -/
theorem ChargeUnit.InOrder.release {c : ChargeUnit} {y : StayState} (h : c.InOrder y) {ack : Nat} (hlow : c.acknowledged ≤ ack)
    (hhigh : ack ≤ c.lastIssued) (hclose : y = .closing → ack ≠ c.lastIssued) : (c.release ack).InOrder y := by
  have hrange := fun i => h.mem_range (i := i)
  obtain ⟨hacked, hsequences, hfits, hflags, hwrite⟩ := h
  obtain ⟨done, due, hl, hdone, hdue⟩ := writtenFirst_iff.mp hflags
  have hleft : (c.release ack).list = (done.filter fun i => decide (ack < i.record.sequence)) ++
      due.filter fun i => decide (ack < i.record.sequence) := by
    rw [ChargeUnit.release, hl, List.filter_append]
  have hdone' : ∀ i ∈ done.filter fun i => decide (ack < i.record.sequence), i.written = true := fun i hi =>
    hdone i (List.mem_of_mem_filter hi)
  have hdue' : ∀ i ∈ due.filter fun i => decide (ack < i.record.sequence), i.written = false := fun i hi =>
    hdue i (List.mem_of_mem_filter hi)
  refine ⟨hhigh, ?_, ?_, ?_, fun w hw hlisted => ?_⟩
  · have hnumbers : (c.list.filter fun i => decide (ack < i.record.sequence)).map (fun i => i.record.sequence) =
        (c.list.map fun i => i.record.sequence).filter fun q => decide (ack < q) := by
      rw [List.filter_map]
      rfl
    exact hnumbers.trans (by rw [hsequences, filter_range'_above hlow hhigh]; rfl)
  · cases y with
    | vacant => exact hfits
    | occupied =>
      obtain ⟨hall, hlen, hmax⟩ := hfits
      rw [List.all_eq_true] at hall
      exact ⟨List.all_eq_true.mpr fun i hi => hall i (List.mem_of_mem_filter hi), (List.length_filter_le _ _).trans hlen, hmax⟩
    | closing =>
      obtain ⟨purchases, close, hl, hall, hlen, hkind, hmax⟩ := (c.fits_closing_iff).mp hfits
      have hlast : close.record.sequence = c.lastIssued := by
        have hcount := congrArg List.length hsequences
        simp only [hl, List.length_map, List.length_append, List.length_singleton, List.length_range'] at hcount
        have hends := congrArg List.getLast? hsequences
        simp only [hl, List.map_append, List.map_cons, List.map_nil, List.getLast?_concat, ← hcount,
          List.range'_1_concat, Option.some.injEq] at hends
        omega
      have hkept : ack < close.record.sequence := hlast ▸ lt_of_le_of_ne hhigh (hclose rfl)
      rw [List.all_eq_true] at hall
      refine (ChargeUnit.fits_closing_iff _).mpr ⟨purchases.filter fun i => decide (ack < i.record.sequence), close, ?_,
        List.all_eq_true.mpr fun i hi => hall i (List.mem_of_mem_filter hi), (List.length_filter_le _ _).trans hlen, hkind, hmax⟩
      simp [ChargeUnit.release, hl, hkept]
  · exact writtenFirst_iff.mpr ⟨_, _, hleft, hdone', hdue'⟩
  · obtain ⟨v, hv, rfl⟩ := Option.map_eq_some_iff.mp hw
    split at hlisted
    · contradiction
    · rename_i hkept
      have hnext := hwrite v hv hlisted
      rw [ChargeUnit.nextUnwritten_split hl hdone hdue] at hnext
      obtain ⟨i, hi, hrecord⟩ := Option.map_eq_some_iff.mp hnext
      obtain ⟨rest, rfl⟩ := List.head?_eq_some_iff.mp hi
      rw [if_neg hkept, ChargeUnit.nextUnwritten_split hleft hdone' hdue',
        List.filter_cons_of_pos (by simpa [hrecord] using hkept), List.head?_cons, Option.map_some, hrecord]

/-- The oldest unwritten record's LOG write completes: its written flag is set (R124). -/
theorem ChargeUnit.InOrder.logged {c : ChargeUnit} {y : StayState} (h : c.InOrder y) {w : LogWrite} (hw : c.write = some w) :
    { c with
      list := if w.listed then markWritten c.list w.record.sequence else c.list
      write := none }.InOrder y := by
  split
  · rename_i hlisted
    have hrecords : (markWritten c.list w.record.sequence).map ChargeItem.record = c.list.map ChargeItem.record := by
      refine (List.map_map ..).trans (List.map_congr_left fun i _ => ?_)
      dsimp only [Function.comp_apply]
      split <;> rfl
    refine h.of_records hrecords rfl rfl ?_ rfl
    obtain ⟨done, due, hl, hdone, hdue⟩ := writtenFirst_iff.mp h.flags
    have hnext := h.write w hw hlisted
    rw [ChargeUnit.nextUnwritten_split hl hdone hdue] at hnext
    obtain ⟨i, hi, hrecord⟩ := Option.map_eq_some_iff.mp hnext
    obtain ⟨rest, rfl⟩ := List.head?_eq_some_iff.mp hi
    have hothers : ∀ j ∈ rest, j.record.sequence ≠ w.record.sequence := by
      have hdistinct : (c.list.map fun i => i.record.sequence).Nodup := h.sequences ▸ List.nodup_range'
      simp only [hl, List.map_append, List.map_cons, List.nodup_append, List.nodup_cons, List.mem_map, hrecord] at hdistinct
      exact fun j hj hsame => hdistinct.2.1.1 ⟨j, hj, hsame⟩
    refine writtenFirst_iff.mpr ⟨markWritten done w.record.sequence ++ [{ i with written := true }], rest, ?_, fun j hj => ?_,
      (List.forall_mem_cons.mp hdue).2⟩
    · have hkept : markWritten rest w.record.sequence = rest :=
        (List.map_congr_left fun j hj => if_neg (hothers j hj)).trans (List.map_id' rest)
      dsimp only
      rw [hl, markWritten, List.map_append, List.map_cons, if_pos (congrArg ChargeRecord.sequence hrecord), ← markWritten,
        ← markWritten, hkept, List.append_assoc, List.singleton_append]
    · rcases List.mem_append.mp hj with hj | hj
      · obtain ⟨k, hk, rfl⟩ := List.mem_map.mp hj
        split
        · rfl
        · exact hdone k hk
      · exact List.mem_singleton.mp hj ▸ rfl
  · obtain ⟨hacked, hsequences, hfits, hflags, -⟩ := h
    exact ⟨hacked, hsequences, hfits, hflags, nofun⟩

end Sys2Proof.Machine
end
section
namespace Sys2Proof.Machine

/-! ## The account's view -/

/-- What the charge list and the credit of a stay rest on (R114, R118, R119). -/
structure AccountView where
  stay : StayState
  credit : Nat
  charges : ChargeUnit

/-- The account's view of a state. The log regions are no part of it. -/
def State.accountView (s : State) : AccountView :=
  ⟨s.stay.state, s.stay.credit, { s.charges with current := none, staged := none }⟩

/-- A piece of work keeps the charge list in order, and the spent amount within the credit limit. -/
structure AccountKept (s t : State) : Prop where
  list : ChargeListSafe s → ChargeListSafe t
  credit : CreditSafe s → CreditSafe t

theorem AccountKept.refl (s : State) : AccountKept s s := ⟨id, id⟩

theorem AccountKept.trans {s t u : State} (h : AccountKept s t) (k : AccountKept t u) : AccountKept s u :=
  ⟨k.list ∘ h.list, k.credit ∘ h.credit⟩

/-- Work that keeps the account after such work, the later one named first. -/
theorem AccountKept.after {s t u : State} (k : AccountKept t u) (h : AccountKept s t) : AccountKept s u := h.trans k

theorem creditSafe_congr {s t : State} (hy : t.stay.state = s.stay.state) (hcredit : t.stay.credit = s.stay.credit)
    (hspent : t.spent = s.spent) (h : CreditSafe s) : CreditSafe t := by
  unfold CreditSafe
  rwa [hy, hcredit, hspent]

/-- Work that the account's view does not show keeps it. -/
theorem AccountKept.of_view {s t : State} (h : t.accountView = s.accountView) : AccountKept s t := by
  have hstay : t.stay.state = s.stay.state := congrArg AccountView.stay h
  have hissued : t.charges.lastIssued = s.charges.lastIssued := congrArg (ChargeUnit.lastIssued ∘ AccountView.charges) h
  have hacked : t.charges.acknowledged = s.charges.acknowledged := congrArg (ChargeUnit.acknowledged ∘ AccountView.charges) h
  have hlist : t.charges.list = s.charges.list := congrArg (ChargeUnit.list ∘ AccountView.charges) h
  have hwrite : t.charges.write = s.charges.write := congrArg (ChargeUnit.write ∘ AccountView.charges) h
  refine ⟨fun hs => ?_, creditSafe_congr hstay (congrArg AccountView.credit h) ?_⟩
  · obtain ⟨ha, hq, hf, hw, hx⟩ := hs
    refine ⟨by rwa [hacked, hissued], by rwa [hlist, hacked, hissued], hstay ▸ ChargeUnit.fits_congr (by rw [hlist]) hissued hf,
      by rwa [hlist], ?_⟩
    rwa [hwrite, ChargeUnit.nextUnwritten, hlist]
  · exact congrArg (fun v : AccountView => v.charges.netTotal + v.charges.taxTotal) h

/-- A choice between works that keep the account keeps it. -/
theorem AccountKept.ite {p : Prop} [Decidable p] {s t u : State} (h : p → AccountKept s t) (k : ¬ p → AccountKept s u) :
    AccountKept s (if p then t else u) := by
  split
  · exact h ‹_›
  · exact k ‹_›

/-- A command that is declined on a test, or goes on, keeps the account if both do. -/
theorem AccountKept.ite_fst {p : Prop} [Decidable p] {s : State} {x y : State × Answer} (h : p → AccountKept s x.1)
    (k : ¬ p → AccountKept s y.1) : AccountKept s (if p then x else y).1 := by
  split
  · exact h ‹_›
  · exact k ‹_›

/-- A step that may not be taken keeps the account if it does where it is taken. -/
theorem AccountKept.getD {s : State} {o : Option State} (h : ∀ t, o = some t → AccountKept s t) :
    AccountKept s (o.getD s) := by
  cases o with
  | none => exact .refl s
  | some t => exact h t rfl

/-- An event taken under a condition keeps the account if it does where it is taken. -/
theorem AccountKept.of_guarded {p : Prop} [Decidable p] {s t u : State} (hk : AccountKept s u)
    (h : (if p then some u else none) = some t) : AccountKept s t := by
  split at h
  · exact Option.some.inj h ▸ hk
  · contradiction

/-! ### The shared operations leave the view -/

@[simp] theorem State.hand_account (s : State) (b : ReportBody) : (s.hand b).accountView = s.accountView := by
  simp [State.accountView]

@[simp] theorem State.raiseEvent_account (s : State) (e : Event) : (s.raiseEvent e).accountView = s.accountView :=
  s.hand_account _

@[simp] theorem State.raiseEvent?_account (s : State) (e : Option Event) : (s.raiseEvent? e).accountView = s.accountView := by
  cases e with
  | none => rfl
  | some e => exact s.raiseEvent_account e

@[simp] theorem State.placeFirst_account (s : State) (r : Report) : (s.placeFirst r).accountView = s.accountView := by
  simp [State.accountView]

@[simp] theorem State.handOver_account (s : State) : s.handOver.accountView = s.accountView := by simp [State.accountView]

@[simp] theorem State.request_account (s : State) (a : Agent) : (s.request a).accountView = s.accountView := by
  simp [State.accountView]

@[simp] theorem State.requestMedia_account (s : State) : s.requestMedia.accountView = s.accountView := by
  simp [State.accountView]

@[simp] theorem State.finishFetch_account (s : State) (tag : Word) (code : Byte) (a : Answer) :
    (s.finishFetch tag code a).accountView = s.accountView := by simp [State.accountView]

theorem State.advanceRegion_account (s : State) : s.advanceRegion.accountView = s.accountView := by
  unfold State.advanceRegion
  split
  · rfl
  · split
    · exact State.raiseEvent_account _ _
    · rfl

/-! ### The LOG agent's writes (R124) -/

/-- A LOG write begins with the oldest unwritten record, with none in progress (R124). -/
theorem State.beginLog_accountKept {s t : State} (h : s.beginLog = some t) : AccountKept s t := by
  unfold State.beginLog at h
  split at h
  · rename_i r c hregion hnext hidle
    split at h
    · obtain rfl := Option.some.inj h
      refine (AccountKept.of_view (State.request_account _ .log)).after ⟨fun hs => ?_, id⟩
      obtain ⟨hacked, hsequences, hfits, hflags, -⟩ := hs
      refine ⟨hacked, hsequences, ChargeUnit.fits_congr rfl rfl hfits, hflags, fun w hw _ => ?_⟩
      obtain rfl := Option.some.inj hw
      exact hnext
    · contradiction
  · contradiction

/-- A LOG write completes: the record still listed is marked written (R124). -/
theorem State.completeLog_accountKept {s t : State} (h : s.completeLog = some t) : AccountKept s t := by
  unfold State.completeLog at h
  split at h
  · rename_i addr data w hport hw
    split at h
    · obtain rfl := Option.some.inj h
      exact (AccountKept.of_view (State.handOver_account _)).after ((AccountKept.of_view (State.advanceRegion_account _)).after
        ⟨fun hs => chargeListSafe_iff.mpr ((chargeListSafe_iff.mp hs).logged hw), id⟩)
    · contradiction
  · contradiction

/-! ### The memory path, the lanes and the log regions leave the view -/

/-- No event of the store port but a LOG write's touches the account. -/
theorem PortMove.account {s t : State} (h : PortMove s t) : AccountKept s t := by
  cases h with
  | commandPhase h =>
    rcases State.takeCommandPhase_some h with ⟨-, rfl⟩ | ⟨-, rfl⟩
    · exact .of_view (State.requestMedia_account _)
    · exact .of_view rfl
  | complete h =>
    obtain ⟨-, -, m, u, -, -, hu, rfl⟩ := State.completeMedia_some h
    rw [(State.lastWords_some hu).1]
    exact .of_view (State.handOver_account _)
  | resume h =>
    obtain ⟨m, -, -, rfl⟩ := State.resumeMedia_some h
    exact .of_view (State.requestMedia_account _)
  | rewrite m h => exact .of_view rfl
  | reportTail w => exact .of_view rfl
  | beginFetch h =>
    obtain ⟨-, rfl⟩ := State.beginFetch_some h
    exact .of_view (State.request_account _ _)
  | finishFetch h tag code a => exact .of_view (s.finishFetch_account tag code a)
  | takeReport h =>
    obtain ⟨r, rest, -, -, rfl | ⟨w, rfl⟩⟩ := State.takeReport_some h
    · exact .of_view rfl
    · exact .of_view (State.request_account _ _)
  | completeReport h =>
    obtain ⟨addr, data, w, -, -, rfl⟩ := State.completeReport_some h
    exact .of_view (State.handOver_account _)
  | beginLog h => exact State.beginLog_accountKept h
  | completeLog h => exact State.completeLog_accountKept h
  | discard h =>
    obtain ⟨a, addr, data, -, rfl⟩ := State.discardHouse_some h
    rw [State.dropOrphan_eq]
    exact .of_view (State.handOver_account _)
  | orphanEnds h => exact .of_view s.handOver_account
  | lineHolds words =>
    rw [s.lineHolds_eq words]
    exact .of_view rfl

/-- Work that leaves the charge unit and the room's items as they are leaves the account's view. -/
theorem State.accountView_of_room {s t : State} (hcharges : t.charges = s.charges) (hroom : t.roomView = s.roomView) :
    t.accountView = s.accountView := by
  have hstay : t.stay = s.stay := congrArg RoomView.stay hroom
  rw [State.accountView, hcharges, hstay, ← State.accountView]

theorem State.runBind_account (s : State) (lane role service : Byte) (base slots : Nat) :
    (s.runBind lane role service base slots).1.accountView = s.accountView := by
  refine State.accountView_of_room ?_ (s.runBind_room lane role service base slots)
  unfold State.runBind
  split
  · rfl
  · dsimp only
    split
    · rfl
    · obtain ⟨-, -, hcharges⟩ := (s.setLane _ _).joinSlot_keeps service
      exact hcharges

theorem State.runUnbind_account (s : State) (lane : Byte) : (s.runUnbind lane).1.accountView = s.accountView := by
  refine State.accountView_of_room ?_ (s.runUnbind_room lane)
  unfold State.runUnbind
  split
  · rfl
  · split
    · rfl
    · obtain ⟨-, -, hcharges⟩ := (s.setLane _ _).leaveSlot_keeps _
      exact hcharges

theorem State.runLogRegion_account (s : State) (base slots : Nat) :
    (s.runLogRegion base slots).1.accountView = s.accountView := by
  rcases s.runLogRegion_cases base slots with ⟨r, -, h⟩ | ⟨-, -, h⟩ | ⟨r, -, -, h⟩ <;> rw [h] <;> rfl

/-! ### The anchor block leaves the view -/

/-- An anchor word's write keeps the account if what it acts on does. -/
theorem State.anchorStep_accountKept {s t : State} {at? : Nat → Bool} {w : WriteWord} {act : State → Nat → State}
    (hact : ∀ u a, (act u a).accountView = u.accountView) (h : s.anchorStep at? w act = some t) : AccountKept s t := by
  unfold State.anchorStep at h
  split at h
  · contradiction
  · split at h
    · obtain rfl := Option.some.inj h
      exact .ite (fun _ => .of_view rfl) fun _ => .of_view (hact _ _)
    · contradiction

theorem State.latchBase_account (s : State) (w : WriteWord) (a : Nat) : (s.latchBase w a).accountView = s.accountView := by
  unfold State.latchBase
  split
  · rfl
  · split <;> rfl

theorem State.writeCommandSlots_account (s : State) (w : WriteWord) :
    (s.writeCommandSlots w).accountView = s.accountView := by
  have horphan : ∀ u : State, u.orphanFetch.accountView = u.accountView := fun u => by
    rcases u.orphanFetch_cases with ⟨-, h⟩ | ⟨a, d, o, -, h⟩ | h <;> rw [h] <;> rfl
  exact horphan _

theorem State.writeCommandTail_account (s : State) (w : WriteWord) : (s.writeCommandTail w).accountView = s.accountView := rfl

theorem State.writeReportTail_account (s : State) (w : WriteWord) : (s.writeReportTail w).accountView = s.accountView := rfl

theorem State.writeReportSlots_account (s : State) (w : WriteWord) :
    (s.writeReportSlots w).accountView = s.accountView := by
  have horphan : ∀ u : State, u.orphanReport.accountView = u.accountView := fun u => by
    rcases u.orphanReport_cases with ⟨w, -, -, h⟩ | ⟨a, d, w, -, -, h⟩ | h <;> rw [h]
    · exact State.placeFirst_account _ _
    · rfl
  have hreports : ∀ u : State, u.placeRestartReports.accountView = u.accountView := fun u => by
    unfold State.placeRestartReports
    dsimp only
    split <;> split <;> simp
  unfold State.writeReportSlots State.openReportRing
  dsimp only
  split
  · exact (hreports _).trans (horphan _)
  · exact horphan _

/-! ### The title table and the lane engine leave the view -/

theorem State.register_account (s : State) (t : TitleTerms) : (s.register t).accountView = s.accountView := by
  unfold State.register
  split
  · rfl
  · split
    · rfl
    · unfold State.refuse
      split
      · rfl
      · exact State.raiseEvent_account _ _

theorem State.titleNotice_account (s : State) (i : Fin 4) (t : TitleTerms) :
    (s.titleNotice i t).accountView = s.accountView := by
  unfold State.titleNotice
  dsimp only
  split
  · rfl
  · split
    · rfl
    · exact State.register_account (s.setSlot i _) t

theorem State.applyNotice_account (s : State) (service : Byte) (p : List Byte) :
    (s.applyNotice service p).accountView = s.accountView := by
  unfold State.applyNotice
  split
  · exact s.titleNotice_account _ _
  · rfl
  · rfl

theorem State.takeHeader_account (s : State) (n : Fin 4) (addr : Nat) (w : WriteWord) :
    (s.takeHeader n addr w).accountView = s.accountView := by
  unfold State.takeHeader
  split
  · rfl
  · split
    · rfl
    · exact State.raiseEvent?_account _ _

theorem State.takePayload_account (s : State) (n : Fin 4) (addr : Nat) (w : WriteWord) :
    (s.takePayload n addr w).accountView = s.accountView := by
  unfold State.takePayload
  split
  · split
    · dsimp only
      split
      · exact State.applyNotice_account _ _ _
      · rfl
    · rfl
  · rfl

theorem State.laneWriteStep_accountKept {s t : State} {header : Bool} {w : WriteWord} {take : State → Fin 4 → Nat → State}
    (htake : ∀ u n a, (take u n a).accountView = u.accountView) (h : s.laneWriteStep header w take = some t) :
    AccountKept s t := by
  unfold State.laneWriteStep at h
  split at h
  · contradiction
  · split at h
    · split at h
      · obtain rfl := Option.some.inj h
        exact .ite (fun _ => .of_view (htake _ _ _)) fun _ => .of_view rfl
      · contradiction
    · contradiction

theorem State.firstPayload_account (s : State) (t : MediaTxn) (n : Fin 4) (j : Judgement) :
    (s.firstPayload t n j).accountView = s.accountView := by
  unfold State.firstPayload
  split
  · split
    · rfl
    · dsimp only
      split <;> rfl
  · rfl

theorem State.laneReadStep_accountKept {s t : State} (h : s.laneReadStep = some t) : AccountKept s t := by
  unfold State.laneReadStep at h
  split at h
  · contradiction
  · split at h
    · dsimp only at h
      split at h
      · obtain rfl := Option.some.inj h
        exact .of_view (State.firstPayload_account _ _ _ _)
      · obtain rfl := Option.some.inj h
        exact .of_view rfl
    · contradiction

end Sys2Proof.Machine
end

section
namespace Sys2Proof.Machine

/-! ## Commits (R113, R114) -/

/-- What the checks on an entry find when none fails (R113). -/
theorem State.commitEntryCheck_none {s : State} {e : TitleEntry} (h : s.commitEntryCheck e = none) :
    s.spent + s.totalOf e ≤ s.stay.credit ∧ s.charges.purchases < 15 ∧ s.charges.lastIssued < 2 ^ 32 - 2 := by
  unfold State.commitEntryCheck at h
  split at h
  · contradiction
  split at h
  · contradiction
  split at h
  · contradiction
  split at h
  · contradiction
  split at h
  · contradiction
  · rename_i hcredit hfull
    exact ⟨Nat.not_lt.mp hcredit, Nat.not_le.mp fun hp => hfull (.inl hp), Nat.not_le.mp fun hi => hfull (.inr hi)⟩

theorem State.purchaseRecord_isPurchase (s : State) (e : TitleEntry) (second : Nat) :
    ChargeItem.isPurchase ⟨s.purchaseRecord e second, false⟩ = true := by
  have hbody : ∃ discreet title service, s.purchaseBody e = .purchase discreet title service (s.netOf e) (s.taxOf e) := by
    unfold State.purchaseBody
    split <;> exact ⟨_, _, _, rfl⟩
  obtain ⟨discreet, title, service, hbody⟩ := hbody
  simp [ChargeItem.isPurchase, State.purchaseRecord, hbody]

/-- A commit that passes its checks issues one PURCHASE record more, and stays within the credit limit (R113, R114). -/
theorem State.makeCommit_accountKept {s : State} {n : BitVec 16} {e : TitleEntry} (h : s.commitCheck n = .ok e) (second : Nat) :
    AccountKept s (s.makeCommit e second) := by
  obtain ⟨hy, -, hentry⟩ := State.commitCheck_ok h
  obtain ⟨hcredit, hpurchases, hissued⟩ := State.commitEntryCheck_none hentry
  refine ⟨fun hs => ?_, fun _ _ => ?_⟩
  · have horder := chargeListSafe_iff.mp hs
    have hfits : (s.charges.issue (s.purchaseRecord e second)).fits s.stay.state := by
      have hold := horder.fits
      rw [hy] at hold ⊢
      obtain ⟨hall, -, -⟩ := hold
      have hkind : ChargeItem.isPurchase ⟨s.purchaseRecord e second, false⟩ = true := s.purchaseRecord_isPurchase e second
      rw [ChargeUnit.purchases, List.filter_eq_self.mpr (List.all_eq_true.mp hall)] at hpurchases
      refine ⟨by simp [ChargeUnit.issue, hall, hkind], by simpa [ChargeUnit.issue] using hpurchases, ?_⟩
      simp only [ChargeUnit.issue]
      omega
    obtain ⟨ha, hq, hf, hw, hx⟩ := horder.issue (r := s.purchaseRecord e second) rfl hfits
    exact ⟨ha, hq, ChargeUnit.fits_congr rfl rfl hf, hw, hx⟩
  · have hspent : (s.makeCommit e second).spent = s.spent + s.totalOf e := Nat.add_add_add_comm ..
    exact hspent.trans_le hcredit

end Sys2Proof.Machine
end
section
namespace Sys2Proof.Machine

/-! ## The viewing meter and the tick (R71 to R75, R88, R91, R139) -/

theorem State.meterRun_account (ts : List (BitVec 16)) (s : State) : (State.meterRun ts s).accountView = s.accountView := by
  rw [State.meterRun_eq ts s]
  rfl

theorem State.runMeter_account (s : State) : s.runMeter.accountView = s.accountView := State.meterRun_account _ s

theorem State.countPreview_account (s : State) (e : TitleEntry) : (s.countPreview e).accountView = s.accountView := by
  obtain ⟨hstay, hcharges⟩ := s.countPreview_leaves e
  rw [State.accountView, hstay, hcharges, ← State.accountView]

/-- A preview ends in a commit that passes its checks, or in EXHAUSTED (R73, R74). -/
theorem State.endPreview_accountKept (s : State) (e : TitleEntry) : AccountKept s (s.endPreview e) := by
  have hexhausted : ∀ r, AccountKept s (s.exhaust e.number r) := fun r => .of_view (State.raiseEvent_account _ _)
  cases hseen : e.seenMain with
  | false => exact State.endPreview_mosaic hseen ▸ hexhausted _
  | true =>
    cases hcheck : s.commitCheck e.number with
    | error r => exact State.endPreview_fails hseen hcheck ▸ hexhausted _
    | ok x =>
      rw [State.endPreview_buys hseen hcheck]
      exact (AccountKept.of_view (State.raiseEvent_account _ _)).after (State.makeCommit_accountKept hcheck _)

/-- A step of the meter keeps the account if its action on the entry where the meter stands does. -/
theorem State.meterStep_accountKept {s t : State} {acts : State → TitleEntry → Bool} {act : State → TitleEntry → State}
    (hact : ∀ r e, AccountKept r (act r e)) (h : s.meterStep acts act = some t) : AccountKept s t := by
  obtain ⟨-, rest, e, -, -, -, rfl⟩ := State.meterStep_cases h
  exact (((AccountKept.of_view s.runMeter_account).trans (hact _ e)).trans (.of_view rfl)).trans
    (.of_view (State.meterRun_account rest _))

theorem State.previewEndStep_accountKept {s t : State} (h : s.previewEndStep = some t) : AccountKept s t :=
  State.meterStep_accountKept (fun r e => (State.endPreview_accountKept _ e).after (.of_view (r.countPreview_account e))) h

theorem State.rentalLapsedStep_accountKept {s t : State} (h : s.rentalLapsedStep = some t) : AccountKept s t :=
  State.meterStep_accountKept (act := State.lapse) (fun _ _ => .of_view (State.raiseEvent_account _ _)) h

theorem State.liftExpiredStep_accountKept {s t : State} (h : s.liftExpiredStep = some t) : AccountKept s t := by
  unfold State.liftExpiredStep at h
  split at h
  · obtain rfl := Option.some.inj h
    exact .of_view (State.raiseEvent_account _ _)
  · contradiction

theorem State.lockoutEndedStep_accountKept {s t : State} (h : s.lockoutEndedStep = some t) : AccountKept s t := by
  unfold State.lockoutEndedStep at h
  split at h
  · obtain rfl := Option.some.inj h
    exact .of_view (State.raiseEvent_account _ _)
  · contradiction

theorem State.finishMeter_accountKept (n : Nat) : ∀ s : State, AccountKept s (s.finishMeter n) := by
  induction n with
  | zero => exact fun s => .of_view rfl
  | succ n ih =>
    intro s
    simp only [State.finishMeter]
    split
    · exact (State.previewEndStep_accountKept ‹_›).trans (ih _)
    · split
      · exact (State.rentalLapsedStep_accountKept ‹_›).trans (ih _)
      · exact .of_view rfl

theorem State.settleMeter_accountKept (s : State) : AccountKept s s.settleMeter :=
  (State.finishMeter_accountKept _ _).after (.of_view s.runMeter_account)

theorem State.settleLift_accountKept (s : State) : AccountKept s s.settleLift :=
  .getD fun _ => State.liftExpiredStep_accountKept

theorem State.settleLockout_accountKept (s : State) : AccountKept s s.settleLockout :=
  .getD fun _ => State.lockoutEndedStep_accountKept

theorem State.settleIn_accountKept (s : State) (o : TickOrder) : AccountKept s (s.settleIn o) := by
  have hmeter := State.settleMeter_accountKept
  have hlift := State.settleLift_accountKept
  have hlockout := State.settleLockout_accountKept
  cases o with
  | meterLiftLockout => exact (hlockout _).after ((hlift _).after (hmeter _))
  | meterLockoutLift => exact (hlift _).after ((hlockout _).after (hmeter _))
  | liftMeterLockout => exact (hlockout _).after ((hmeter _).after (hlift _))
  | liftLockoutMeter => exact (hmeter _).after ((hlockout _).after (hlift _))
  | lockoutMeterLift => exact (hlift _).after ((hmeter _).after (hlockout _))
  | lockoutLiftMeter => exact (hmeter _).after ((hlift _).after (hlockout _))

theorem State.settle_accountKept (s : State) : AccountKept s s.settle :=
  .ite (fun _ => .refl s) fun _ => (State.settleIn_accountKept _ _).after (.of_view rfl)

/-- The beginning of a tick moves the stay's seconds and leaves the account (R139). -/
theorem State.beginTick_account (s : State) : s.beginTick.accountView = s.accountView := by
  obtain ⟨hstay, -⟩ := s.stay.tick_keeps
  rw [State.accountView, State.beginTick]
  dsimp only
  rw [hstay]
  rfl

theorem State.secondsTickStep_accountKept (s : State) : AccountKept s s.secondsTickStep := by
  have hbegun := AccountKept.of_view s.beginTick_account
  have hdrawn : AccountKept s { s.beginTick with freeDraws := s.beginTick.freeDraws + 1 } := hbegun.trans (.of_view rfl)
  exact .ite (fun _ => .ite (fun _ => (AccountKept.of_view (State.runMeter_account _)).after hdrawn) fun _ => hdrawn) fun _ =>
    (AccountKept.of_view (State.runMeter_account _)).after hbegun

theorem clockPeriod_accountKept (s : State) : AccountKept s (clockPeriod s) :=
  .ite
    (fun _ => .ite (fun _ => s.settle_accountKept.trans (State.secondsTickStep_accountKept _)) fun _ =>
      s.settle_accountKept.trans (.of_view rfl))
    fun _ => s.settle_accountKept

/-! ## The commands of the lock unit, the stay controller and the charge unit -/

theorem State.inStay_accountKept (s : State) {run : State → State × Answer}
    (h : s.stay.state = .occupied → AccountKept s (run s).1) : AccountKept s (s.inStay run).1 := by
  rcases s.inStay_cases run with ⟨-, e⟩ | ⟨-, e⟩ | ⟨hy, e⟩ <;> rw [e]
  · exact .refl s
  · exact .refl s
  · exact h hy

theorem State.comparePin_accountKept (s : State) (p : PinField) {matched : State → State × Answer}
    (h : ∀ u, AccountKept u (matched u).1) : AccountKept s (s.comparePin p matched).1 := by
  rcases s.comparePin_cases p matched with ⟨-, e⟩ | ⟨-, -, e⟩ | ⟨-, -, e⟩ <;> rw [e]
  · exact .refl s
  · exact (h _).after (.of_view rfl)
  · exact .ite_fst (fun _ => .of_view rfl) fun _ => .of_view (State.raiseEvent_account _ _)

theorem State.runUnlock_accountKept (s : State) (p : PinField) : AccountKept s (s.runUnlock p).1 :=
  .ite_fst (fun _ => .refl s) fun _ => s.inStay_accountKept fun _ => s.comparePin_accountKept p fun _ => .of_view rfl

theorem State.runRelock_accountKept (s : State) : AccountKept s s.runRelock.1 :=
  s.inStay_accountKept fun _ => .ite_fst (fun _ => .of_view (State.raiseEvent_account _ _)) fun _ => .refl s

theorem State.runSetCeiling_accountKept (s : State) (c : Byte) (p : PinField) : AccountKept s (s.runSetCeiling c p).1 :=
  .ite_fst (fun _ => .refl s) fun _ => s.inStay_accountKept fun _ => .ite_fst (fun _ => .of_view rfl) fun _ =>
    .ite_fst (fun _ => .refl s) fun _ => s.comparePin_accountKept p fun _ => .of_view rfl

theorem State.runChangePin_accountKept (s : State) (old new : PinField) : AccountKept s (s.runChangePin old new).1 :=
  .ite_fst (fun _ => .refl s) fun _ => s.inStay_accountKept fun _ => s.comparePin_accountKept old fun _ => .of_view rfl

theorem State.runTariff_accountKept (s : State) (t : BitVec 16) (a b c : Byte) (m : BitVec 16) :
    AccountKept s (s.runTariff t a b c m).1 :=
  .ite_fst (fun _ => .refl s) fun _ => .ite_fst (fun _ => .refl s) fun _ => .of_view rfl

theorem State.runQueryTitle_accountKept (s : State) (n : BitVec 16) : AccountKept s (s.runQueryTitle n).1 := by
  unfold State.runQueryTitle
  split
  · exact .refl s
  · exact .ite_fst (fun _ => .refl s) fun _ => .refl s

/-- No record has been issued in a vacant room, so that its list is empty (R111, R119). -/
theorem ChargeUnit.InOrder.vacant {c : ChargeUnit} (h : c.InOrder .vacant) :
    c.lastIssued = 0 ∧ c.acknowledged = 0 ∧ c.list = [] := by
  have hissued : c.lastIssued = 0 := h.fits
  have hacked := h.acked
  have hlist := h.sequences
  rw [hissued, Nat.zero_sub, List.range'_zero, List.map_eq_nil_iff] at hlist
  exact ⟨hissued, by omega, hlist⟩

/-- OPEN_STAY opens the stay with totals of 0 and no record (R111, R134). -/
theorem State.runOpenStay_accountKept (s : State) (n : Word) (c : Byte) (k : Word) (d : Byte) (p : PinField) :
    AccountKept s (s.runOpenStay n c k d p).1 :=
  .ite_fst (fun _ => .refl s) fun _ => .ite_fst (fun _ => .refl s) fun hy => by
    refine ⟨fun hs => ?_, fun _ _ => Nat.zero_le _⟩
    have horder := chargeListSafe_iff.mp hs
    rw [Decidable.not_not.mp hy] at horder
    obtain ⟨hissued, -, hlist⟩ := horder.vacant
    obtain ⟨ha, hq, -, hw, hx⟩ := horder
    refine ⟨ha, hq, ⟨?_, ?_, ?_⟩, hw, hx⟩
    · simp [State.openedStay, hlist]
    · simp [State.openedStay, hlist]
    · simp [State.openedStay, hissued]

/-- CLOSE_STAY issues the CLOSE record behind the PURCHASE records (R121, R135). -/
theorem State.beginClose_accountKept {s : State} (hy : s.stay.state = .occupied) : AccountKept s s.beginClose := by
  have hlift : AccountKept s (if s.liftActive then s.endLift .close else s) :=
    .ite (fun _ => .of_view (State.raiseEvent_account _ _)) fun _ => .refl s
  have hstate : (if s.liftActive then s.endLift .close else s).stay.state = .occupied := by
    split
    · simpa [State.endLift] using hy
    · exact hy
  refine hlift.trans ⟨fun hs => chargeListSafe_iff.mpr ?_, fun hs _ => hs (by simp [hstate])⟩
  have horder := chargeListSafe_iff.mp hs
  refine horder.issue rfl ((ChargeUnit.fits_closing_iff _).mpr ⟨_, _, rfl, ?_⟩)
  have hold := horder.fits
  rw [hstate] at hold
  obtain ⟨hall, hlen, hmax⟩ := hold
  refine ⟨hall, hlen, rfl, ?_⟩
  simp only [ChargeUnit.issue]
  omega

theorem State.runCloseStay_accountKept (s : State) : AccountKept s s.runCloseStay.1 := by
  unfold State.runCloseStay
  split
  · exact .refl s
  · exact .refl s
  · exact State.beginClose_accountKept ‹_›

/-- ACK_CHARGES releases records; the last record of a CLOSING stay is released by the return to VACANT (R120, R136). -/
theorem State.runAckCharges_accountKept (s : State) (q : Nat) : AccountKept s (s.runAckCharges q).1 := by
  by_cases hvacates : s.stay.state = .closing ∧ s.charges.ackTo q = s.charges.lastIssued
  · rw [State.runAckCharges_vacates hvacates.1 hvacates.2]
    refine (AccountKept.of_view (State.raiseEvent_account _ _)).after ⟨fun hs => ?_, fun _ hy => absurd rfl hy⟩
    have horder := chargeListSafe_iff.mp hs
    refine ⟨le_rfl, rfl, rfl, rfl, fun w hw hlisted => ?_⟩
    obtain ⟨v, hv, rfl⟩ := Option.map_eq_some_iff.mp hw
    split at hlisted
    · contradiction
    · rename_i hkept
      obtain ⟨i, hi, hrecord, -⟩ := ChargeUnit.nextUnwritten_mem (horder.write v hv hlisted)
      obtain ⟨-, hle⟩ := horder.mem_range hi
      exact absurd (hrecord ▸ hle) (hvacates.2 ▸ hkept)
  · rw [State.runAckCharges_releases hvacates]
    refine ⟨fun hs => ?_, id⟩
    have horder := chargeListSafe_iff.mp hs
    have hacked := horder.acked
    exact chargeListSafe_iff.mpr (horder.release (le_min hacked (le_max_left _ _)) (min_le_left _ _)
      fun hy hack => hvacates ⟨hy, hack⟩)

theorem State.runSetCredit_accountKept (s : State) (w : Word) : AccountKept s (s.runSetCredit w).1 :=
  s.inStay_accountKept fun _ => .ite_fst (fun _ => .refl s) fun hcredit =>
    ⟨fun ⟨ha, hq, hf, hw, hx⟩ => ⟨ha, hq, hf, hw, hx⟩, fun _ _ => Nat.not_lt.mp hcredit⟩

theorem State.runBuy_accountKept (s : State) (n : BitVec 16) : AccountKept s (s.runBuy n).1 := by
  cases hcheck : s.commitCheck n with
  | error r => exact State.runBuy_fails hcheck ▸ .refl s
  | ok e => exact State.runBuy_commits hcheck ▸ State.makeCommit_accountKept hcheck _

/-! ## Restarts, retention and power-on -/

/-- Written flags and the LOG write lost, the records and their numbers stand (R127). -/
theorem ChargeUnit.InOrder.volatileCleared {c : ChargeUnit} {y : StayState} (h : c.InOrder y) : c.volatileCleared.InOrder y := by
  refine h.of_records (List.map_map ..) rfl rfl (writtenFirst_iff.mpr ⟨[], _, rfl, nofun, fun i hi => ?_⟩) rfl
  obtain ⟨j, -, rfl⟩ := List.mem_map.mp hi
  rfl

theorem AccountKept.of_cleared {s t : State} (hstay : t.stay = s.stay) (hcharges : t.charges = s.charges.volatileCleared) :
    AccountKept s t := by
  refine ⟨fun hs => chargeListSafe_iff.mpr ?_, creditSafe_congr (by rw [hstay]) (by rw [hstay]) ?_⟩
  · rw [hstay, hcharges]
    exact (chargeListSafe_iff.mp hs).volatileCleared
  · rw [State.spent, hcharges]
    rfl

/-- The charge unit and the credit at their cold defaults are in order (R98, R141). -/
theorem State.restart_cold_account (s : State) : ChargeListSafe (s.restart .cold) ∧ CreditSafe (s.restart .cold) :=
  ⟨⟨le_rfl, rfl, rfl, rfl, nofun⟩, fun hy => absurd rfl hy⟩

theorem State.restart_accountKept (s : State) (cause : Cause) : AccountKept s (s.restart cause) := by
  rcases s.restart_cases cause with ⟨rfl, -⟩ | ⟨-, e⟩
  · exact ⟨fun _ => s.restart_cold_account.1, fun _ => s.restart_cold_account.2⟩
  · exact e ▸ .of_cleared rfl rfl

theorem State.enterRetainStep_accountKept (s : State) (ws : List WriteWord) : AccountKept s (s.enterRetainStep ws) := by
  rw [s.enterRetainStep_eq ws]
  exact .of_cleared rfl rfl

theorem State.enterRunStep_accountKept (s : State) (cs : List (BitVec 26 × Byte)) : AccountKept s (s.enterRunStep cs) :=
  (s.restart_accountKept _).trans (.of_view rfl)

theorem State.powerOnStep_accountKept (s : State) : AccountKept s s.powerOnStep := .of_cleared rfl rfl

theorem State.recoverStep_account (s : State) : s.recoverStep.accountView = s.accountView := rfl

theorem State.relapseStep_account (s : State) : s.relapseStep.accountView = s.accountView := rfl

theorem State.sampleStep_accountKept (s : State) (x : Sample) : AccountKept s (s.sampleStep x) := by
  unfold State.sampleStep
  split
  · cases x with
    | low => exact .ite (fun _ => s.enterRetainStep_accountKept []) fun _ => .of_view rfl
    | between => exact .of_view rfl
    | good => exact .of_view rfl
  · exact .ite (fun _ => .of_view rfl) fun _ => .refl s
  · cases x with
    | low => exact .of_view rfl
    | between => exact .of_view rfl
    | good => exact .ite (fun _ => s.enterRunStep_accountKept []) fun _ => .of_view rfl

theorem State.assertStep_accountKept {s t : State} {ws : List WriteWord} (h : s.assertStep ws = some t) : AccountKept s t := by
  unfold State.assertStep at h
  split at h
  · contradiction
  · split at h
    · exact Option.some.inj h ▸ (PortMove.lineHolds s ws).account
    · exact Option.some.inj h ▸ .of_view rfl

theorem State.releaseStep_accountKept {s t : State} (h : s.releaseStep = some t) : AccountKept s t := by
  unfold State.releaseStep at h
  split at h
  · contradiction
  · split at h
    · exact Option.some.inj h ▸ (s.restart_accountKept .line).trans (.of_view rfl)
    · exact Option.some.inj h ▸ .of_view rfl

/-! ## Every event but a decay keeps the account -/

theorem perform_accountKept {f : State → Option State} {s t : State} (hf : ∀ u v, f u = some v → AccountKept u v)
    (h : perform f s = .next t) : AccountKept s t := by
  obtain rfl := Host.Outcome.next.inj h
  exact (AccountKept.getD (hf _)).after s.settle_accountKept

theorem performInTick_accountKept {f : State → Option State} {s t : State} (hf : ∀ u v, f u = some v → AccountKept u v)
    (h : performInTick f s = .next t) : AccountKept s t := by
  obtain rfl := Host.Outcome.next.inj h
  exact AccountKept.getD (hf s)

/-- A command of the command ring keeps the account if its owner does. -/
theorem execCommand_accountKept {c : Instr} {tag : Word} {code : Byte} {run : State → State × Answer} {s t : State}
    (h : execCommand c tag code run s = .next t) (hr : ∀ u, AccountKept u (run u).1) : AccountKept s t :=
  perform_accountKept
    (fun u _ hv => AccountKept.of_guarded ((AccountKept.of_view (State.finishFetch_account _ _ _ _)).after (hr u)) hv) h

theorem execMediaCommandPhase_accountKept {dir : Direction} {addr : Word} {count : Nat} {s t : State}
    (h : execMediaCommandPhase dir addr count s = .next t) : AccountKept s t := by
  unfold execMediaCommandPhase at h
  split at h
  · contradiction
  · split at h
    · contradiction
    · exact perform_accountKept (fun _ _ hv => (PortMove.commandPhase hv).account) h

theorem execRestart_accountKept {tag : Word} {s t : State} (h : execRestart tag s = .next t) : AccountKept s t :=
  perform_accountKept
    (fun u _ =>
      AccountKept.of_guarded ((AccountKept.of_view (State.handOver_account _)).after (u.restart_accountKept .command))) h

/-- Every event but a decay of the retained store keeps the charge list in order and the spent amount within the credit limit. -/
theorem exec_accountKept {i : Instr} (hi : i ≠ .retainedStoreDecay) {s t : State} (h : exec i s = .next t) :
    AccountKept s t := by
  cases i with
  | mediaCommandPhase dir addr count => exact execMediaCommandPhase_accountKept h
  | mediaTransactionComplete words => exact perform_accountKept (fun _ _ hv => (PortMove.complete hv).account) h
  | mediaResume => exact perform_accountKept (fun _ _ hv => (PortMove.resume hv).account) h
  | anchorWrite w =>
    exact perform_accountKept (fun _ _ => State.anchorStep_accountKept fun u a => u.latchBase_account w a) h
  | commandRingSlots w =>
    exact perform_accountKept (fun _ _ => State.anchorStep_accountKept fun u _ => u.writeCommandSlots_account w) h
  | reportRingSlots w =>
    exact perform_accountKept (fun _ _ => State.anchorStep_accountKept fun u _ => u.writeReportSlots_account w) h
  | commandTail w =>
    exact perform_accountKept (fun _ _ => State.anchorStep_accountKept fun u _ => u.writeCommandTail_account w) h
  | reportTail w =>
    exact perform_accountKept (fun _ _ => State.anchorStep_accountKept fun u _ => u.writeReportTail_account w) h
  | headerWrite w =>
    exact perform_accountKept (fun _ _ => State.laneWriteStep_accountKept fun u n a => u.takeHeader_account n a w) h
  | payloadWrite w =>
    exact perform_accountKept (fun _ _ => State.laneWriteStep_accountKept fun u n a => u.takePayload_account n a w) h
  | laneReadWord => exact perform_accountKept (fun _ _ => State.laneReadStep_accountKept) h
  | commandFetchRequest => exact perform_accountKept (fun _ _ hv => (PortMove.beginFetch hv).account) h
  | siteKey tag key => exact execCommand_accountKept ((exec_siteKey ..).symm.trans h) fun _ => .of_view rfl
  | tariff tag a b c d e =>
    exact execCommand_accountKept ((exec_tariff ..).symm.trans h) fun u => u.runTariff_accountKept a b c d e
  | openStay tag n c k d p =>
    exact execCommand_accountKept ((exec_openStay ..).symm.trans h) fun u => u.runOpenStay_accountKept n c k d p
  | closeStay tag => exact execCommand_accountKept ((exec_closeStay ..).symm.trans h) State.runCloseStay_accountKept
  | stayQuery tag => exact execCommand_accountKept ((exec_stayQuery ..).symm.trans h) AccountKept.refl
  | ackCharges tag q =>
    exact execCommand_accountKept ((exec_ackCharges ..).symm.trans h) fun u => u.runAckCharges_accountKept _
  | logRegion tag base slots =>
    exact execCommand_accountKept ((exec_logRegion ..).symm.trans h) fun u => .of_view (u.runLogRegion_account _ _)
  | setCredit tag limit =>
    exact execCommand_accountKept ((exec_setCredit ..).symm.trans h) fun u => u.runSetCredit_accountKept limit
  | buy tag title => exact execCommand_accountKept ((exec_buy ..).symm.trans h) fun u => u.runBuy_accountKept title
  | bind tag lane role service base slots =>
    exact execCommand_accountKept ((exec_bind ..).symm.trans h) fun u => .of_view (u.runBind_account _ _ _ _ _)
  | unbind tag lane =>
    exact execCommand_accountKept ((exec_unbind ..).symm.trans h) fun u => .of_view (u.runUnbind_account lane)
  | unlock tag pin => exact execCommand_accountKept ((exec_unlock ..).symm.trans h) fun u => u.runUnlock_accountKept pin
  | relock tag => exact execCommand_accountKept ((exec_relock ..).symm.trans h) State.runRelock_accountKept
  | setCeiling tag c pin =>
    exact execCommand_accountKept ((exec_setCeiling ..).symm.trans h) fun u => u.runSetCeiling_accountKept c pin
  | changePin tag old new =>
    exact execCommand_accountKept ((exec_changePin ..).symm.trans h) fun u => u.runChangePin_accountKept old new
  | queryTitle tag title =>
    exact execCommand_accountKept ((exec_queryTitle ..).symm.trans h) fun u => u.runQueryTitle_accountKept title
  | restart tag => exact execRestart_accountKept h
  | unknown tag code => exact execCommand_accountKept ((exec_unknown ..).symm.trans h) AccountKept.refl
  | reportTake => exact perform_accountKept (fun _ _ hv => (PortMove.takeReport hv).account) h
  | reportWriteComplete => exact perform_accountKept (fun _ _ hv => (PortMove.completeReport hv).account) h
  | logWriteBegin => exact perform_accountKept (fun _ _ => State.beginLog_accountKept) h
  | logWriteComplete => exact perform_accountKept (fun _ _ => State.completeLog_accountKept) h
  | secondsTick => exact perform_accountKept (fun u _ => AccountKept.of_guarded u.secondsTickStep_accountKept) h
  | previewEnd => exact performInTick_accountKept (fun _ _ => State.previewEndStep_accountKept) h
  | rentalLapsed => exact performInTick_accountKept (fun _ _ => State.rentalLapsedStep_accountKept) h
  | liftExpired => exact performInTick_accountKept (fun _ _ => State.liftExpiredStep_accountKept) h
  | lockoutEnded => exact performInTick_accountKept (fun _ _ => State.lockoutEndedStep_accountKept) h
  | enterRetain passed =>
    exact perform_accountKept (fun u _ => AccountKept.of_guarded (u.enterRetainStep_accountKept passed)) h
  | supplyRecover => exact perform_accountKept (fun u _ => AccountKept.of_guarded (.of_view u.recoverStep_account)) h
  | supplyRelapse => exact perform_accountKept (fun u _ => AccountKept.of_guarded (.of_view u.relapseStep_account)) h
  | enterRun changed => exact perform_accountKept (fun u _ => AccountKept.of_guarded (u.enterRunStep_accountKept changed)) h
  | powerOn => exact perform_accountKept (fun u _ hv => Option.some.inj hv ▸ u.powerOnStep_accountKept) h
  | resetAssert passed => exact perform_accountKept (fun _ _ => State.assertStep_accountKept) h
  | resetRelease => exact perform_accountKept (fun _ _ => State.releaseStep_accountKept) h
  | supplySample v => exact perform_accountKept (fun u _ hv => Option.some.inj hv ▸ u.sampleStep_accountKept _) h
  | houseAccessDiscarded => exact perform_accountKept (fun _ _ hv => (PortMove.discard hv).account) h
  | retainedStoreDecay => exact absurd rfl hi

end Sys2Proof.Machine
end
section
namespace Sys2Proof.Machine

/-! ## Decays where the part stands by its retained items (R155, R156, R157) -/

/-- What a step can do that ends in a part that stands by its retained items: it began in one, or it is the COLD restart. -/
inductive TrustedStep (s t : State) : Prop
  | clock (h : s.trusts) (ht : t = clockPeriod s)
  | event (h : s.trusts) (i : Instr) (rest : List Instr) (hi : i ≠ .retainedStoreDecay)
      (ht : exec i { s with pending := rest } = .next t)
  | fed (h : s.trusts) (rest : List Instr) (ht : t = { s with pending := rest }.settle)
  | decay (h : s.trusts) (hrun : s.inRun = false) (left : Retained) (rest : List Instr) (draws : Nat)
      (hleft : (s.decay left).retained = s.retained) (ht : t = { s.decay left with pending := rest, freeDraws := draws })
  | cold (u : State) (changed : List (BitVec 26 × Byte)) (hu : u.checkHolds = false) (ht : t = u.enterRunStep changed)

theorem State.of_not_trusts {s : State} (h : ¬ s.trusts) : s.inRun = false ∧ s.checkHolds = false :=
  ⟨Bool.eq_false_iff.mpr fun hr => h (.inl hr), Bool.eq_false_iff.mpr fun hc => h (.inr hc)⟩

/-- Outside RUN a reference clock period changes nothing (R138, R154). -/
theorem clockPeriod_outside {s : State} (hsupply : SupplySafe s) (hrun : s.inRun = false) : clockPeriod s = s := by
  simp [clockPeriod, State.settle_of_none s (State.tick_of_supplySafe hsupply hrun), State.working, hrun]

/-- A decay after which the part stands by its retained items came upon a part that stood by them and left them as they were. -/
theorem trustedStep_of_decay {s t : State} {rest : List Instr} (hsupply : SupplySafe s) (hcaught : DecayCaught s)
    (hfront : s.pending = .retainedStoreDecay :: rest) (hstep : exec .retainedStoreDecay { s with pending := rest } = .next t)
    (htrusts : t.trusts) : TrustedStep s t := by
  cases hrun : s.inRun with
  | true =>
    have hfed := exec_decay_of_run (s := { s with pending := rest }) hrun
    exact .fed (.inl hrun) rest (Host.Outcome.next.inj (hstep.symm.trans hfed))
  | false =>
    have hdecayed := exec_decay_outside (s := { s with pending := rest }) (State.tick_of_supplySafe hsupply hrun) hrun
    rw [State.decay_pending] at hdecayed
    obtain rfl := Host.Outcome.next.inj (hstep.symm.trans hdecayed)
    obtain ⟨hword, hstays, -⟩ := s.decay_keeps (Config.decayedStore s.freeDraws)
    have hholds : (s.decay (Config.decayedStore s.freeDraws)).checkHolds = true :=
      htrusts.resolve_left fun h => Bool.noConfusion (((State.inRun_congr hstays).trans hrun).symm.trans h)
    have hleft := hcaught rest hfront hholds
    rw [State.checkHolds, hword, State.computeCheck_congr hleft, ← State.checkHolds] at hholds
    exact .decay (.inr hholds) hrun _ rest _ hleft rfl

/-- Every step that ends in a part that stands by its retained items is one of the trusted steps. -/
theorem trustedStep_of_step {s t : State} (hsupply : SupplySafe s) (hcaught : DecayCaught s) (hstep : step s = .next t)
    (htrusts : t.trusts) : TrustedStep s t := by
  unfold step at hstep
  split at hstep
  · obtain rfl := Host.Outcome.next.inj hstep
    refine .clock (by_contra fun h => h ?_) rfl
    rwa [clockPeriod_outside hsupply (State.of_not_trusts h).1] at htrusts
  · rename_i i rest hfront
    by_cases hi : i = .retainedStoreDecay
    · exact trustedStep_of_decay hsupply hcaught (hi ▸ hfront) (hi ▸ hstep) htrusts
    · by_cases ht : s.trusts
      · exact .event ht i rest hi hstep
      · obtain ⟨hrun, hcheck⟩ := State.of_not_trusts ht
        have houtside : OutsideRun { s with pending := rest } t :=
          exec_outside_run hi (State.tick_of_supplySafe hsupply hrun) hrun hstep
        rcases houtside with hsealed | ⟨changed, ht⟩
        · exact absurd htrusts (State.not_trusts_of_sealed hsealed hcheck)
        · exact .cold { s with pending := rest } changed hcheck ht

/-- Outside RUN no LOG write is in progress (R154). -/
theorem State.write_of_supplySafe {s : State} (h : SupplySafe s) (hrun : s.inRun = false) : s.charges.write = none := by
  unfold SupplySafe at h
  unfold State.inRun at hrun
  cases hs : s.supply with
  | run low => simp [hs] at hrun
  | retain =>
    rw [hs] at h
    exact h.2
  | recover good =>
    rw [hs] at h
    exact h.2.2

/-- Contents left by a decay that are those before leave the account as it was, less the written flags (R157); with no LOG write
in progress nothing rests on those. -/
theorem State.decay_accountKept {s : State} {left : Retained} (hleft : (s.decay left).retained = s.retained)
    (hwrite : s.charges.write = none) : AccountKept s (s.decay left) := by
  rcases s.decay_cases left with ⟨-, e⟩ | ⟨-, e⟩
  · have hstay : (s.decay left).stay = s.stay := congrArg Retained.stay hleft
    refine ⟨fun hs => chargeListSafe_iff.mpr ?_, creditSafe_congr (by rw [hstay]) (by rw [hstay])
      (congrArg (fun r : Retained => r.netTotal + r.taxTotal) hleft)⟩
    rw [hstay]
    refine (chargeListSafe_iff.mp hs).of_records (congrArg Retained.records hleft) (congrArg Retained.lastIssued hleft)
      (congrArg Retained.acknowledged hleft) ?_ ((s.decay_keeps left).2.2.2.2.2.trans hwrite)
    rw [e]
    refine writtenFirst_iff.mpr ⟨[], _, rfl, nofun, fun i hi => ?_⟩
    obtain ⟨r, -, rfl⟩ := List.mem_map.mp hi
    rfl
  · rw [e]
    exact .refl s

/-- A step that ends in a part that stands by its retained items keeps the account, or leaves it at its cold defaults. -/
theorem TrustedStep.account {s t : State} (hsupply : SupplySafe s) (h : TrustedStep s t) :
    (s.trusts ∧ AccountKept s t) ∨ (ChargeListSafe t ∧ CreditSafe t) := by
  cases h with
  | clock h ht => exact .inl ⟨h, ht ▸ clockPeriod_accountKept s⟩
  | event h i rest hi ht => exact .inl ⟨h, .after (exec_accountKept hi ht) (.of_view rfl)⟩
  | fed h rest ht => exact .inl ⟨h, ht ▸ .after (State.settle_accountKept _) (.of_view rfl)⟩
  | decay h hrun left rest draws hleft ht =>
    exact .inl ⟨h, ht ▸ (State.decay_accountKept hleft (State.write_of_supplySafe hsupply hrun)).trans (.of_view rfl)⟩
  | cold u changed hu ht =>
    subst ht
    rw [State.enterRunStep, hu]
    exact .inr u.restart_cold_account

end Sys2Proof.Machine

namespace Sys2Proof.Proofs
open Sys2Proof Sys2Proof.Machine

/-- Settles O57: every event but a decay keeps the account, a decay that leaves the contents as they were finds no LOG write in
progress, and only a COLD restart can follow contents that the part does not stand by. -/
theorem stepsKeepChargesAndCredit : Obligations.StepsKeepChargesAndCredit := by
  have haccount : ∀ {s t}, SupplySafe s → DecayCaught s → step s = .next t → t.trusts →
      (s.trusts ∧ AccountKept s t) ∨ (ChargeListSafe t ∧ CreditSafe t) := fun hsupply hcaught hstep htrusts =>
    (trustedStep_of_step hsupply hcaught hstep htrusts).account hsupply
  refine ⟨fun s t hsupply hcaught hsafe hstep htrusts => ?_, fun s t hsupply hcaught hsafe hstep htrusts => ?_⟩
  · rcases haccount hsupply hcaught hstep htrusts with ⟨ht, hkept⟩ | ⟨hlist, -⟩
    · exact hkept.list (hsafe ht)
    · exact hlist
  · rcases haccount hsupply hcaught hstep htrusts with ⟨ht, hkept⟩ | ⟨-, hcredit⟩
    · exact hkept.credit (hsafe ht)
    · exact hcredit

end Sys2Proof.Proofs
end

section
namespace Sys2Proof.Machine

/-! ## LOG_REGION and SET_CREDIT (R118, R122) -/

/-- A region that can be taken: its base on a record's boundary, 8 to 4,096 records, inside the store (R122). -/
abbrev RegionFits (base slots : Nat) : Prop :=
  base % 32 = 0 ∧ 8 ≤ slots ∧ slots ≤ 4096 ∧ base + slots * 32 ≤ Config.storeSize

section
variable {s : State} {base slots : Nat}

theorem State.runLogRegion_declines {r : ResultCode} (h : s.regionCheck base slots = some r) :
    s.runLogRegion base slots = (s, r, .absent) := by
  rw [State.runLogRegion, h]

theorem State.regionCheck_badFormat (h : ¬ RegionFits base slots) : s.regionCheck base slots = some .badFormat := if_pos h

variable (h : RegionFits base slots)
include h

theorem State.regionCheck_overlap (hc : ¬ ∀ x ∈ s.extents, overlaps (base, slots * 32) x = false) :
    s.regionCheck base slots = some .overlap :=
  (if_neg (not_not_intro h)).trans (if_pos ((Bool.not_eq_false _).mp (mt overlapsAny_false.mp hc)))

variable (hc : ∀ x ∈ s.extents, overlaps (base, slots * 32) x = false)
include hc

/-- A region that fits and is clear of every range is declined only for want of a place (R122). -/
theorem State.regionCheck_clear : s.regionCheck base slots =
    if s.charges.current.isSome ∧ s.charges.staged.isSome then some .stagedFull else none :=
  (if_neg (not_not_intro h)).trans (if_neg ((Bool.not_eq_true _).mpr (overlapsAny_false.mpr hc)))

theorem State.runLogRegion_current (hcur : s.charges.current = none) :
    s.runLogRegion base slots =
      ({ s with charges := { s.charges with current := some ⟨base, slots, 0⟩ } }, .done, .logRegion false) := by
  rw [State.runLogRegion, State.regionCheck_clear h hc, if_neg (by simp [hcur])]
  simp only [hcur]

theorem State.runLogRegion_staged (hcur : s.charges.current.isSome = true) (hst : s.charges.staged = none) :
    s.runLogRegion base slots =
      ({ s with charges := { s.charges with staged := some ⟨base, slots⟩ } }, .done, .logRegion true) := by
  obtain ⟨r, hr⟩ := Option.isSome_iff_exists.mp hcur
  rw [State.runLogRegion, State.regionCheck_clear h hc, if_neg (by simp [hst])]
  simp only [hr]

end

section
variable {s : State} {limit : Word}

theorem State.runSetCredit_vacant (hy : s.stay.state = .vacant) : s.runSetCredit limit = (s, .noStay, .absent) :=
  State.inStay_vacant hy

theorem State.runSetCredit_closing (hy : s.stay.state = .closing) : s.runSetCredit limit = (s, .closing, .absent) :=
  State.inStay_closing hy

variable (hy : s.stay.state = .occupied)
include hy

theorem State.runSetCredit_declines (hk : clampCredit limit < s.spent) :
    s.runSetCredit limit = (s, .credit, .setCreditSpent s.spent) := (State.inStay_occupied hy).trans (if_pos hk)

theorem State.runSetCredit_replaces (hk : s.spent ≤ clampCredit limit) :
    s.runSetCredit limit =
      ({ s with stay := { s.stay with credit := clampCredit limit } }, .done,
        .setCredit (clampCredit limit) (clampCredit limit - s.spent)) :=
  (State.inStay_occupied hy).trans (if_neg (Nat.not_lt.mpr hk))

end

/-! ## What a PURCHASE record carries (R112, R115) -/

/-- A net amount is at most the price: the discount takes a part of it, and the rest rounds to no more (R112). -/
theorem chargeNet_le {price discount : Nat} : chargeNet price discount ≤ price := by
  have hfull : price * (100 - discount) ≤ price * 100 := Nat.mul_le_mul_left _ (Nat.sub_le _ _)
  unfold chargeNet
  omega

/-- A property that at most one of the four numbers has tells them apart. -/
theorem four_unique {p : Fin 4 → Bool} (h : (four.filter p).length ≤ 1) {m n : Fin 4} (hm : p m = true) (hn : p n = true) :
    m = n := by
  have hmem : ∀ k, p k = true → k ∈ four.filter p := fun k hk => List.mem_filter.mpr ⟨mem_four k, hk⟩
  match hl : four.filter p, h with
  | [], _ => simpa [hl] using hmem m hm
  | [k], _ =>
    rw [hl] at hmem
    exact (List.mem_singleton.mp (hmem m hm)).trans (List.mem_singleton.mp (hmem n hn)).symm

section
variable {s : State} {n : Fin 4} {b : Binding} {title : BitVec 16}

theorem State.laneService_bound (hb : (s.lanes.get n).binding = some b) : s.laneService n = some b.service := by
  rw [State.laneService, hb, Option.map_some]

theorem State.laneShows_bound (hb : (s.lanes.get n).binding = some b) (ht : (s.slotOf b.service).title = title) :
    s.laneShows n title = true := by
  simp only [State.laneShows, State.laneService_bound hb, ht, beq_self_eq_true]

/-- With one MAIN lane at most, a MAIN lane that shows a title gives its service (R115). -/
theorem State.carriedService_main (hb : (s.lanes.get n).binding = some b) (hmain : s.laneIsMain n = true)
    (hone : (four.filter s.laneIsMain).length ≤ 1) (hshows : s.laneShows n title = true) :
    s.carriedService title = b.service := by
  have hfound : (four.filter fun m => s.laneShows m title).find? s.laneIsMain = some n := by
    cases hfind : (four.filter fun m => s.laneShows m title).find? s.laneIsMain with
    | none => exact absurd hmain (List.find?_eq_none.mp hfind n (List.mem_filter.mpr ⟨mem_four n, hshows⟩))
    | some m => rw [four_unique hone (List.find?_some hfind) hmain]
  simp only [State.carriedService, hfound, State.laneService_bound hb, Option.getD_some]

/-- With no MAIN lane among them, the lowest-numbered lane that shows a title gives its service (R115). -/
theorem State.carriedService_lowest (hb : (s.lanes.get n).binding = some b) (hshows : s.laneShows n title = true)
    (hmain : ∀ m, s.laneShows m title = true → s.laneIsMain m = false) (hlow : ∀ m, m < n → s.laneShows m title = false) :
    s.carriedService title = b.service := by
  have hnone : (four.filter fun m => s.laneShows m title).find? s.laneIsMain = none := by
    simpa [List.find?_eq_none, mem_four] using hmain
  have hfirst : (four.filter fun m => s.laneShows m title).head? = some n := by
    rw [List.head?_filter, four_find?_eq_some]
    exact ⟨hshows, hlow⟩
  obtain ⟨rest, hrest⟩ := List.head?_eq_some_iff.mp hfirst
  rw [hrest] at hnone
  simp only [State.carriedService, hrest, hnone, State.laneService_bound hb, Option.getD_some]

theorem State.carriedService_none (h : ∀ m, s.laneShows m title = false) : s.carriedService title = 0 := by
  have hempty : (four.filter fun m => s.laneShows m title) = [] := by simp [h]
  simp only [State.carriedService, hempty, List.find?_nil]

end

end Sys2Proof.Machine

namespace Sys2Proof.Proofs
open Sys2Proof Sys2Proof.Machine

/-- Settles O34, test by test of `regionCheck`, then state by state of the stay. -/
theorem logRegionAndSetCreditComplete : Obligations.LogRegionAndSetCreditComplete := by
  unfold Obligations.LogRegionAndSetCreditComplete
  refine ⟨fun tag base slots s htakes => ?_, fun tag limit s htakes => ?_⟩
  · intro c fits clear
    have hanswer : ∀ {u a}, s.runLogRegion base.toNat slots.toNat = (u, a) → Answers c tag 0x07 s u a :=
      answers_of_takes (exec_logRegion tag base slots s) htakes
    refine ⟨fun hf => hanswer (State.runLogRegion_declines (State.regionCheck_badFormat hf)),
      fun hf hc => hanswer (State.runLogRegion_declines (State.regionCheck_overlap hf hc)), fun hf hc hcur hst => ?_,
      fun hf hc hcur => hanswer (State.runLogRegion_current hf hc hcur),
      fun hf hc hcur hst => hanswer (State.runLogRegion_staged hf hc hcur hst)⟩
    exact hanswer (State.runLogRegion_declines ((State.regionCheck_clear hf hc).trans (if_pos ⟨hcur, hst⟩)))
  · intro c k spent
    have hanswer : ∀ {u a}, s.runSetCredit limit = (u, a) → Answers c tag 0x08 s u a :=
      answers_of_takes (exec_setCredit tag limit s) htakes
    exact ⟨fun hy => hanswer (State.runSetCredit_vacant hy), fun hy => hanswer (State.runSetCredit_closing hy),
      fun hy hk => hanswer (State.runSetCredit_declines hy hk), fun hy hk => hanswer (State.runSetCredit_replaces hy hk)⟩

/-- Settles O35: the rounding by its bounds, the service by the lanes that show the title. -/
theorem whatAPurchaseRecordCarries : Obligations.WhatAPurchaseRecordCarries := by
  unfold Obligations.WhatAPurchaseRecordCarries
  refine ⟨fun price discount rate hprice hdiscount hrate => ?_, fun s e => ?_⟩
  · intro net tax
    have hnet : net ≤ price := chargeNet_le
    have hpriced : price * (100 - discount) ≤ 65535 * 100 := Nat.mul_le_mul hprice (Nat.sub_le _ _)
    have htaxed : net * rate ≤ 65535 * 3000 := Nat.mul_le_mul (hnet.trans hprice) hrate
    exact ⟨Nat.mul_div_le _ 100, Nat.lt_mul_div_succ _ (by decide), Nat.mul_div_le _ 10000, Nat.lt_mul_div_succ _ (by decide), hnet,
      Nat.add_le_add_right hpriced 50, Nat.add_le_add_right htaxed 5000⟩
  · intro net tax
    refine ⟨fun h => if_pos h, fun h => if_neg (Nat.not_le.mpr h), fun n b hb hrole hone ht => ?_, fun n b hb ht hmain hlow => ?_,
      State.carriedService_none⟩
    · have hmain : s.laneIsMain n = true := by rw [State.laneIsMain_eq, hb, Option.map_some, hrole]; rfl
      exact State.carriedService_main hb hmain hone (State.laneShows_bound hb ht)
    · exact State.carriedService_lowest hb (State.laneShows_bound hb ht) hmain hlow

end Sys2Proof.Proofs
end

section
namespace Sys2Proof.Machine

/-! ## Fields of records as numbers (00_scope.md, section 5) -/

section
variable {r : List Byte} {i : Nat}

theorem numberAt_byte {b : Byte} (h : (r.drop i).take 1 = [b]) : numberAt r i 1 = b.toNat := by
  simp [numberAt, h]

theorem numberAt_half {x : BitVec 16} (h : (r.drop i).take 2 = halfBytes x) : numberAt r i 2 = x.toNat := by
  have hx := be16_toNat (x.extractLsb' 8 8) (x.extractLsb' 0 8)
  rw [be16_halfBytes] at hx
  rw [numberAt, h, hx]
  simp [halfBytes]

theorem numberAt_word {w : Word} (h : (r.drop i).take 4 = wordBytes w) : numberAt r i 4 = w.toNat := by
  have hw := be32_toNat (byteOf w 0) (byteOf w 1) (byteOf w 2) (byteOf w 3)
  rw [be32_byteOf] at hw
  rw [numberAt, h, hw]
  simp [wordBytes]

theorem numberAt_nat8 {x : Nat} (h : (r.drop i).take 1 = nat8 x) : numberAt r i 1 = x % 2 ^ 8 :=
  (numberAt_byte h).trans (BitVec.toNat_ofNat x 8)

theorem numberAt_nat16 {x : Nat} (h : (r.drop i).take 2 = nat16 x) : numberAt r i 2 = x % 2 ^ 16 :=
  (numberAt_half h).trans (BitVec.toNat_ofNat x 16)

theorem numberAt_nat32 {x : Nat} (h : (r.drop i).take 4 = nat32 x) : numberAt r i 4 = x % 2 ^ 32 :=
  (numberAt_word h).trans (BitVec.toNat_ofNat x 32)

/-- A byte that carries a code below 256 spells it. -/
theorem numberAt_code {x : Nat} (h : (r.drop i).take 1 = nat8 x) (hx : x < 256) : numberAt r i 1 = x :=
  (numberAt_nat8 h).trans (Nat.mod_eq_of_lt hx)

theorem numberAt_zeros {n : Nat} (h : (r.drop i).take n = zeros n) : numberAt r i n = 0 := by
  have hzeros : ∀ m, (zeros m).foldl (fun v b => v * 256 + b.toNat) 0 = 0 := fun m => by
    induction m with
    | zero => rfl
    | succ m ih => simpa [zeros, List.replicate_succ] using ih
  rw [numberAt, h, hzeros]

end

/-! ## Command records (section 12.4) -/

section
variable {r : List Byte} {i : Nat}

/-- The bytes of a record from byte `i` on, one by one. -/
theorem take_drop_eq_recordBytes {n : Nat} (h : i + n ≤ r.length) :
    (r.drop i).take n = (List.range n).map fun k => recordByte r (i + k) := by
  refine List.ext_getElem (by simp; omega) fun k hk _ => ?_
  have hin : i + k < r.length := by
    simp only [List.length_take, List.length_drop] at hk
    omega
  simp [recordByte, hin]

theorem numberAt_recordByte (h : i + 1 ≤ r.length) : numberAt r i 1 = (recordByte r i).toNat :=
  numberAt_byte (take_drop_eq_recordBytes h)

theorem numberAt_recordHalf (h : i + 2 ≤ r.length) : numberAt r i 2 = (recordHalf r i).toNat := by
  rw [recordHalf, be16_toNat, numberAt, take_drop_eq_recordBytes h]
  simp [List.range_succ]

theorem numberAt_recordWord (h : i + 4 ≤ r.length) : numberAt r i 4 = (recordWord r i).toNat := by
  rw [recordWord, be32_toNat, numberAt, take_drop_eq_recordBytes h]
  simp [List.range_succ]

theorem numberAt_recordKey (h : i + 8 ≤ r.length) :
    numberAt r i 8 = (be64 (recordWord r i) (recordWord r (i + 4))).toNat := by
  rw [be64_toNat, recordWord, recordWord, be32_toNat, be32_toNat, numberAt, take_drop_eq_recordBytes h]
  simp [List.range_succ, Nat.add_assoc]
  omega

/-- A PIN field read at byte `i` is the nine bytes there. -/
theorem recordPin_bytes (h : i + 9 ≤ r.length) :
    (recordPin r i).length :: (recordPin r i).places = (r.drop i).take 9 := by
  rw [take_drop_eq_recordBytes h]
  rfl

/-- A byte of a field is that of the bytes found there. -/
theorem recordByte_of_bytes {bs : List Byte} {n k : Nat} (h : (r.drop i).take n = bs) (hk : k < n) :
    recordByte r (i + k) = recordByte bs k := by
  simp [← h, recordByte, hk]

theorem recordHalf_eq {x : BitVec 16} (h : (r.drop i).take 2 = halfBytes x) : recordHalf r i = x := by
  have h0 : recordByte r i = _ := recordByte_of_bytes (k := 0) h (by decide)
  rw [recordHalf, h0, recordByte_of_bytes (k := 1) h (by decide)]
  exact be16_halfBytes x

theorem recordWord_eq {w : Word} (h : (r.drop i).take 4 = wordBytes w) : recordWord r i = w := by
  have h0 : recordByte r i = _ := recordByte_of_bytes (k := 0) h (by decide)
  rw [recordWord, h0, recordByte_of_bytes (k := 1) h (by decide), recordByte_of_bytes (k := 2) h (by decide),
    recordByte_of_bytes (k := 3) h (by decide)]
  exact be32_byteOf w

theorem recordKey_eq {key : BitVec 64} (hhigh : (r.drop i).take 4 = wordBytes (key.extractLsb' 32 32))
    (hlow : (r.drop (i + 4)).take 4 = wordBytes (key.extractLsb' 0 32)) :
    be64 (recordWord r i) (recordWord r (i + 4)) = key := by
  rw [recordWord_eq hhigh, recordWord_eq hlow, be64_words]

end

/-! ### Which bytes of a record are read (R144) -/

/-- The parameter bytes of a command by its code (section 12.4). -/
def parameterBytes (code : Nat) : Nat := [0, 8, 7, 19, 0, 0, 4, 6, 4, 2, 10, 1, 9, 0, 10, 18, 2, 0].getD code 0

/-- `n` bytes from byte `i` on are parameters that a code names; byte 11 of BIND is named by none. -/
abbrev NamedBytes (code i n : Nat) : Prop :=
  8 ≤ i ∧ i + n ≤ 8 + parameterBytes code ∧ (code = 10 → i + n ≤ 11 ∨ 12 ≤ i)

section
variable {r other : List Byte} {i : Nat}

theorem recordHalf_congr (h : ∀ k, i ≤ k → k < i + 2 → recordByte other k = recordByte r k) :
    recordHalf other i = recordHalf r i := by
  rw [recordHalf, h i (by omega) (by omega), h (i + 1) (by omega) (by omega), ← recordHalf]

theorem recordWord_congr (h : ∀ k, i ≤ k → k < i + 4 → recordByte other k = recordByte r k) :
    recordWord other i = recordWord r i := by
  rw [recordWord, h i (by omega) (by omega), h (i + 1) (by omega) (by omega), h (i + 2) (by omega) (by omega),
    h (i + 3) (by omega) (by omega), ← recordWord]

theorem recordPin_congr (h : ∀ k, i ≤ k → k < i + 9 → recordByte other k = recordByte r k) :
    recordPin other i = recordPin r i := by
  rw [recordPin, h i (by omega) (by omega), h (i + 1) (by omega) (by omega), h (i + 2) (by omega) (by omega),
    h (i + 3) (by omega) (by omega), h (i + 4) (by omega) (by omega), h (i + 5) (by omega) (by omega),
    h (i + 6) (by omega) (by omega), h (i + 7) (by omega) (by omega), h (i + 8) (by omega) (by omega), ← recordPin]

/-- Two records that agree on the tag, the code and the parameters that the code names carry one command (R144). -/
theorem decodeRecord_congr (hhead : ∀ k, k < 5 → recordByte other k = recordByte r k)
    (hnamed : ∀ i n, NamedBytes (recordByte r 4).toNat i n → ∀ k, i ≤ k → k < i + n → recordByte other k = recordByte r k) :
    decodeRecord other = decodeRecord r := by
  have htag : recordWord other 0 = recordWord r 0 := recordWord_congr fun k _ hk => hhead k (by omega)
  have hbyte : ∀ {c}, (recordByte r 4).toNat = c → ∀ i, NamedBytes c i 1 → recordByte other i = recordByte r i := by
    rintro _ rfl i h
    exact hnamed i 1 h i le_rfl (Nat.lt_succ_self i)
  have hhalf : ∀ {c}, (recordByte r 4).toNat = c → ∀ i, NamedBytes c i 2 → recordHalf other i = recordHalf r i := by
    rintro _ rfl i h
    exact recordHalf_congr (hnamed i 2 h)
  have hword : ∀ {c}, (recordByte r 4).toNat = c → ∀ i, NamedBytes c i 4 → recordWord other i = recordWord r i := by
    rintro _ rfl i h
    exact recordWord_congr (hnamed i 4 h)
  have hpin : ∀ {c}, (recordByte r 4).toNat = c → ∀ i, NamedBytes c i 9 → recordPin other i = recordPin r i := by
    rintro _ rfl i h
    exact recordPin_congr (hnamed i 9 h)
  unfold decodeRecord
  rw [htag, hhead 4 (by decide)]
  dsimp only
  split
  case h_1 hc => rw [hword hc 8 (by decide), hword hc 12 (by decide)]
  case h_2 hc =>
    rw [hhalf hc 8 (by decide), hbyte hc 10 (by decide), hbyte hc 11 (by decide), hbyte hc 12 (by decide),
      hhalf hc 13 (by decide)]
  case h_3 hc =>
    rw [hword hc 8 (by decide), hbyte hc 12 (by decide), hword hc 13 (by decide), hbyte hc 17 (by decide),
      hpin hc 18 (by decide)]
  case h_6 hc => rw [hword hc 8 (by decide)]
  case h_7 hc => rw [hword hc 8 (by decide), hhalf hc 12 (by decide)]
  case h_8 hc => rw [hword hc 8 (by decide)]
  case h_9 hc => rw [hhalf hc 8 (by decide)]
  case h_10 hc =>
    rw [hbyte hc 8 (by decide), hbyte hc 9 (by decide), hbyte hc 10 (by decide), hword hc 12 (by decide),
      hhalf hc 16 (by decide)]
  case h_11 hc => rw [hbyte hc 8 (by decide)]
  case h_12 hc => rw [hpin hc 8 (by decide)]
  case h_14 hc => rw [hbyte hc 8 (by decide), hpin hc 9 (by decide)]
  case h_15 hc => rw [hpin hc 8 (by decide), hpin hc 17 (by decide)]
  case h_16 hc => rw [hhalf hc 8 (by decide)]
  all_goals rfl

end

/-- A code of no command is that of UNKNOWN (R144). -/
theorem decodeRecord_unassigned {r : List Byte} (h : ¬ (1 ≤ (recordByte r 4).toNat ∧ (recordByte r 4).toNat ≤ 17)) :
    decodeRecord r = .unknown (recordWord r 0) (recordByte r 4) := by
  unfold decodeRecord
  dsimp only
  split
  case h_18 => rfl
  all_goals omega

/-- A command's record carries it. -/
theorem decodeRecord_encodeRecord {i : Instr} {r : List Byte} (hw : wellFormed i = true) (h : encodeRecord i = some r) :
    decodeRecord r = i := by
  cases i with cases h
  | siteKey tag key => exact congrArg₂ Instr.siteKey (recordWord_eq rfl) (recordKey_eq rfl rfl)
  | tariff tag tax clamp house discreet minutes =>
    exact (Instr.tariff.injEq ..).mpr ⟨recordWord_eq rfl, recordHalf_eq rfl, rfl, rfl, rfl, recordHalf_eq rfl⟩
  | openStay tag number ceiling credit discount pin =>
    exact (Instr.openStay.injEq ..).mpr ⟨recordWord_eq rfl, recordWord_eq rfl, rfl, recordWord_eq rfl, rfl, rfl⟩
  | closeStay tag => exact congrArg Instr.closeStay (recordWord_eq rfl)
  | stayQuery tag => exact congrArg Instr.stayQuery (recordWord_eq rfl)
  | ackCharges tag sequence => exact congrArg₂ Instr.ackCharges (recordWord_eq rfl) (recordWord_eq rfl)
  | logRegion tag base slots => exact (Instr.logRegion.injEq ..).mpr ⟨recordWord_eq rfl, recordWord_eq rfl, recordHalf_eq rfl⟩
  | setCredit tag limit => exact congrArg₂ Instr.setCredit (recordWord_eq rfl) (recordWord_eq rfl)
  | buy tag title => exact congrArg₂ Instr.buy (recordWord_eq rfl) (recordHalf_eq rfl)
  | bind tag lane role service base slots =>
    exact (Instr.bind.injEq ..).mpr ⟨recordWord_eq rfl, rfl, rfl, rfl, recordWord_eq rfl, recordHalf_eq rfl⟩
  | unbind tag lane => exact congrArg₂ Instr.unbind (recordWord_eq rfl) rfl
  | unlock tag pin => exact congrArg₂ Instr.unlock (recordWord_eq rfl) rfl
  | relock tag => exact congrArg Instr.relock (recordWord_eq rfl)
  | setCeiling tag ceiling pin => exact (Instr.setCeiling.injEq ..).mpr ⟨recordWord_eq rfl, rfl, rfl⟩
  | changePin tag old new => exact (Instr.changePin.injEq ..).mpr ⟨recordWord_eq rfl, rfl, rfl⟩
  | queryTitle tag title => exact congrArg₂ Instr.queryTitle (recordWord_eq rfl) (recordHalf_eq rfl)
  | restart tag => exact congrArg Instr.restart (recordWord_eq rfl)
  | unknown tag code =>
    have hcode : code.toNat = 0 ∨ 17 < code.toNat := by simpa [wellFormed, codeAssigned] using hw
    have hassigned : ¬ (1 ≤ code.toNat ∧ code.toNat ≤ 17) := by omega
    have hdecoded := decodeRecord_unassigned (r := wordBytes tag ++ [code, 0, 0, 0] ++ padTo 24 []) hassigned
    exact hdecoded.trans (congrArg₂ Instr.unknown (recordWord_eq rfl) rfl)

end Sys2Proof.Machine
end

section
namespace Sys2Proof.Machine

/-! ### Where the fields of a command stand -/

section
variable {i : Instr} {r : List Byte} {tag : Word} {code : Byte} {ps : List Byte}

/-- The parameters of a command fill at most the bytes behind the head of its record. -/
theorem recordFields_length (h : recordFields i = some (tag, code, ps)) : ps.length ≤ 24 := by
  cases i <;> cases h <;> simp [recordFields.pinBytes, PinField.places]

theorem encodeRecord_length (h : encodeRecord i = some r) : r.length = 32 := by
  obtain ⟨⟨tag, code, ps⟩, hfields, -⟩ := Option.map_eq_some_iff.mp h
  exact Laws.RecordLength.of_fields i tag code ps hfields (recordFields_length hfields) r h

/-- The tag and the code of a command are those of the record that it is read from. -/
theorem recordFields_decodeRecord (h : recordFields (decodeRecord r) = some (tag, code, ps)) :
    tag = recordWord r 0 ∧ code = recordByte r 4 := by
  unfold decodeRecord at h
  dsimp only at h
  split at h
  all_goals cases h
  case h_18 => exact ⟨rfl, rfl⟩
  all_goals exact ⟨rfl, BitVec.eq_of_toNat_eq (Eq.symm ‹_›)⟩

end

/-- Records that agree on the tag, the code and the parameter bytes that section 12.4 names carry one command. -/
theorem decodeRecord_of_agree {i : Instr} {r other : List Byte} (hlen : r.length = 32) (h : decodeRecord r = i)
    (hagree : ∀ k, k < 5 ∨ 8 ≤ k ∧ k < 8 + parameterBytes (numberAt r 4 1) ∧ ¬ (numberAt r 4 1 = 10 ∧ k = 11) →
      other.getD k 0 = r.getD k 0) : decodeRecord other = i := by
  rw [numberAt_recordByte (hlen ▸ by decide)] at hagree
  refine (decodeRecord_congr (fun k hk => hagree k (.inl hk)) fun j n hn k hlow hhigh => hagree k (.inr ?_)).trans h
  obtain ⟨hfirst, hlast, hgap⟩ := hn
  omega

/-- Every parameter of a command stands in the record at the bytes of section 12.4, beside the command's code. -/
def HoldsFields (r : List Byte) (i : Instr) : Prop :=
  let field := numberAt r
  let pinAt := fun (p : PinField) (k : Nat) => (p.length :: p.places) = (r.drop k).take 9
  match i with
  | .siteKey _ key => field 4 1 = 1 ∧ field 8 8 = key.toNat
  | .tariff _ tax clamp house discreet minutes =>
    field 4 1 = 2 ∧ field 8 2 = tax.toNat ∧ field 10 1 = clamp.toNat ∧ field 11 1 = house.toNat ∧ field 12 1 = discreet.toNat ∧
      field 13 2 = minutes.toNat
  | .openStay _ number ceiling credit discount pin =>
    field 4 1 = 3 ∧ field 8 4 = number.toNat ∧ field 12 1 = ceiling.toNat ∧ field 13 4 = credit.toNat ∧
      field 17 1 = discount.toNat ∧ pinAt pin 18
  | .closeStay _ => field 4 1 = 4
  | .stayQuery _ => field 4 1 = 5
  | .ackCharges _ sequence => field 4 1 = 6 ∧ field 8 4 = sequence.toNat
  | .logRegion _ base slots => field 4 1 = 7 ∧ field 8 4 = base.toNat ∧ field 12 2 = slots.toNat
  | .setCredit _ limit => field 4 1 = 8 ∧ field 8 4 = limit.toNat
  | .buy _ title => field 4 1 = 9 ∧ field 8 2 = title.toNat
  | .bind _ lane role service base slots =>
    field 4 1 = 10 ∧ field 8 1 = lane.toNat ∧ field 9 1 = role.toNat ∧ field 10 1 = service.toNat ∧ field 12 4 = base.toNat ∧
      field 16 2 = slots.toNat
  | .unbind _ lane => field 4 1 = 11 ∧ field 8 1 = lane.toNat
  | .unlock _ pin => field 4 1 = 12 ∧ pinAt pin 8
  | .relock _ => field 4 1 = 13
  | .setCeiling _ ceiling pin => field 4 1 = 14 ∧ field 8 1 = ceiling.toNat ∧ pinAt pin 9
  | .changePin _ old new => field 4 1 = 15 ∧ pinAt old 8 ∧ pinAt new 17
  | .queryTitle _ title => field 4 1 = 16 ∧ field 8 2 = title.toNat
  | .restart _ => field 4 1 = 17
  | .unknown _ _ => field 4 1 = 0 ∨ 17 < field 4 1
  | _ => False

/-- A record holds the fields of the command that it carries (section 12.4). -/
theorem decodeRecord_holdsFields {r : List Byte} (hlen : r.length = 32) : HoldsFields r (decodeRecord r) := by
  have hbyte : ∀ k, k + 1 ≤ 32 → numberAt r k 1 = (recordByte r k).toNat := fun k hk => numberAt_recordByte (hlen ▸ hk)
  have hhalf : ∀ k, k + 2 ≤ 32 → numberAt r k 2 = (recordHalf r k).toNat := fun k hk => numberAt_recordHalf (hlen ▸ hk)
  have hword : ∀ k, k + 4 ≤ 32 → numberAt r k 4 = (recordWord r k).toNat := fun k hk => numberAt_recordWord (hlen ▸ hk)
  have hpin : ∀ k, k + 9 ≤ 32 → (recordPin r k).length :: (recordPin r k).places = (r.drop k).take 9 := fun k hk =>
    recordPin_bytes (hlen ▸ hk)
  have hcode := hbyte 4 (by decide)
  unfold decodeRecord
  dsimp only
  split
  case h_1 hc => exact ⟨hcode.trans hc, numberAt_recordKey (by omega)⟩
  case h_2 hc =>
    exact ⟨hcode.trans hc, hhalf 8 (by decide), hbyte 10 (by decide), hbyte 11 (by decide), hbyte 12 (by decide),
      hhalf 13 (by decide)⟩
  case h_3 hc =>
    exact ⟨hcode.trans hc, hword 8 (by decide), hbyte 12 (by decide), hword 13 (by decide), hbyte 17 (by decide),
      hpin 18 (by decide)⟩
  case h_6 hc => exact ⟨hcode.trans hc, hword 8 (by decide)⟩
  case h_7 hc => exact ⟨hcode.trans hc, hword 8 (by decide), hhalf 12 (by decide)⟩
  case h_8 hc => exact ⟨hcode.trans hc, hword 8 (by decide)⟩
  case h_9 hc => exact ⟨hcode.trans hc, hhalf 8 (by decide)⟩
  case h_10 hc =>
    exact ⟨hcode.trans hc, hbyte 8 (by decide), hbyte 9 (by decide), hbyte 10 (by decide), hword 12 (by decide),
      hhalf 16 (by decide)⟩
  case h_11 hc => exact ⟨hcode.trans hc, hbyte 8 (by decide)⟩
  case h_12 hc => exact ⟨hcode.trans hc, hpin 8 (by decide)⟩
  case h_14 hc => exact ⟨hcode.trans hc, hbyte 8 (by decide), hpin 9 (by decide)⟩
  case h_15 hc => exact ⟨hcode.trans hc, hpin 8 (by decide), hpin 17 (by decide)⟩
  case h_16 hc => exact ⟨hcode.trans hc, hhalf 8 (by decide)⟩
  case h_18 =>
    show numberAt r 4 1 = 0 ∨ 17 < numberAt r 4 1
    simp only [imp_false] at *
    omega
  all_goals exact hcode.trans ‹_›

end Sys2Proof.Machine
end

section
namespace Sys2Proof.Machine

/-! ## Report records (section 12.5) -/

theorem resultCode_eq_idxOf (r : ResultCode) :
    resultCode r = [ResultCode.done, .unknown, .badFormat, .stayOpen, .stayBusy, .noStay, .closing, .laneBusy, .laneIdle,
      .overlap, .noDirectory, .roleTaken, .pinWrong, .lockedOut, .noTitle, .rating, .credit, .logFull, .already, .free,
      .stagedFull].idxOf r := by
  cases r <;> rfl

theorem resultCode_lt (r : ResultCode) : resultCode r < 256 := by cases r <;> decide

theorem stayCode_eq_idxOf (y : StayState) : stayCode y = [StayState.vacant, .occupied, .closing].idxOf y := by cases y <;> rfl

theorem stayCode_lt (y : StayState) : stayCode y < 256 := by cases y <;> decide

theorem titleStateCode_lt (st : TitleState) : titleStateCode st < 256 := by cases st <;> exact of_decide_eq_true rfl

theorem roleCode_eq_idxOf (r : Role) : roleCode r = [Role.main, .mosaic].idxOf r := by cases r <;> rfl

theorem roleCode_lt (r : Role) : roleCode r < 256 := by cases r <;> decide

theorem liftReasonCode_eq_idxOf (r : LiftReason) :
    liftReasonCode r = [LiftReason.expired, .relock, .close, .restart].idxOf r := by
  cases r <;> rfl

theorem liftReasonCode_lt (r : LiftReason) : liftReasonCode r < 256 := by cases r <;> decide

theorem regionOutcomeCode_eq_idxOf (o : RegionOutcome) :
    regionOutcomeCode o = [RegionOutcome.stagedTaken, .noneLeft].idxOf o := by
  cases o <;> rfl

theorem regionOutcomeCode_lt (o : RegionOutcome) : regionOutcomeCode o < 256 := by cases o <;> decide

theorem previewReasonCode_lt : ∀ r : PreviewReason, previewReasonCode r < 256
  | .mosaic => by decide
  | .failed r => resultCode_lt r

theorem eventCode_lt (e : Event) : eventCode e < 256 := by cases e <;> exact of_decide_eq_true rfl

theorem flagBit_lt (b : Bool) : flagBit b < 256 := by cases b <;> decide

theorem causeByte_lt (c : Causes) : causeByte c < 256 := by
  have h : ∀ b, flagBit b ≤ 1 := fun b => by cases b <;> decide
  have := h c.cold
  have := h c.dip
  have := h c.line
  have := h c.command
  unfold causeByte
  omega

/-- Each restart cause has its own bit of the cause byte. -/
theorem causeByte_eq_sum (c : Causes) :
    causeByte c =
      (if c.cold then 1 else 0) + (if c.dip then 2 else 0) + (if c.line then 4 else 0) + (if c.command then 8 else 0) := by
  simp [causeByte, flagBit]

/-- LOST_BEFORE changes byte 1 alone (R163). -/
theorem reportBytes_lost (b : ReportBody) (lost : Bool) :
    (reportBytes b lost)[1]? = some (if lost then 1 else 0) ∧
      ∀ i, i ≠ 1 → (reportBytes b lost)[i]? = (reportBytes b false)[i]? := by
  have hbyte : BitVec.ofNat 8 (flagBit lost) = if lost then 1 else 0 := by cases lost <;> rfl
  cases b
  all_goals
    refine ⟨congrArg some hbyte, fun i hi => ?_⟩
    match i, hi with
    | 0, _ => rfl
    | _ + 2, _ => rfl

theorem reportBytes_absent {tag : Word} {code : Byte} {r : ResultCode} {lost : Bool} {i : Nat} (hlow : 8 ≤ i) (hhigh : i < 32) :
    (reportBytes (.result tag code r .absent) lost)[i]? = some 0 := by
  obtain ⟨k, rfl⟩ := Nat.exists_eq_add_of_le' hlow
  exact List.getElem?_replicate_of_lt (by omega : k < 24)

theorem numberAt_eventCode (e : Event) (lost : Bool) : numberAt (reportBytes (.event e) lost) 2 1 = eventCode e :=
  numberAt_code rfl (eventCode_lt e)

end Sys2Proof.Machine
end

section
namespace Sys2Proof.Proofs
open Sys2Proof.Machine

/-- Settles O43. Commands: `decodeRecord_encodeRecord` reads each one back, `decodeRecord_of_agree` says that only the named
bytes count, and `decodeRecord_holdsFields` says where the fields stand. The words of a report or charge record spell its bytes
by `ofWords_toWords`, and each line of the last three tables reads the fields of one payload, event or charge body in order. -/
theorem commandRecordsAreReadBackWhole : Obligations.CommandRecordsAreReadBackWhole := by
  unfold Obligations.CommandRecordsAreReadBackWhole
  refine ⟨fun i r hw h => ⟨encodeRecord_length h, decodeRecord_encodeRecord hw h⟩,
    fun i r other hw h => decodeRecord_of_agree (encodeRecord_length h) (decodeRecord_encodeRecord hw h), ?_,
    fun x => ofWords_toWords 8 _ (reportBytes_length ..), fun c => ofWords_toWords 8 _ (chargeBytes_length c),
    ⟨fun b lost => ⟨reportBytes_length b lost, reportBytes_lost b lost⟩, fun _ _ _ _ _ => reportBytes_absent,
      chargeBytes_length⟩, ?_, ?_, ?_⟩
  · rintro _ r hlen rfl pinAt
    refine ⟨fun tag code ps h => ?_, decodeRecord_holdsFields hlen⟩
    obtain ⟨rfl, rfl⟩ := recordFields_decodeRecord h
    exact ⟨numberAt_recordWord (by omega), numberAt_recordByte (by omega)⟩
  · intro tag code r lost field
    refine ⟨fun p => ⟨numberAt_byte (b := 1) rfl, numberAt_byte rfl, numberAt_word rfl,
        (numberAt_code rfl (resultCode_lt r)).trans (resultCode_eq_idxOf r)⟩,
      fun t => ⟨numberAt_nat16 rfl, numberAt_nat8 rfl, numberAt_nat8 rfl, numberAt_nat8 rfl, numberAt_nat16 rfl,
        numberAt_zeros rfl⟩,
      fun c k d => ⟨numberAt_nat8 rfl, numberAt_nat32 rfl, numberAt_nat8 rfl, numberAt_zeros rfl⟩,
      fun q n t c => ⟨numberAt_nat32 rfl, numberAt_nat32 rfl, numberAt_nat32 rfl, numberAt_nat32 rfl, numberAt_zeros rfl⟩,
      fun y n t k l a => ⟨(numberAt_code rfl (stayCode_lt y)).trans (stayCode_eq_idxOf y), numberAt_zeros rfl,
        numberAt_nat32 rfl, numberAt_nat32 rfl, numberAt_nat32 rfl, numberAt_nat32 rfl, numberAt_nat32 rfl⟩,
      fun a l => ⟨numberAt_nat32 rfl, numberAt_nat32 rfl, numberAt_zeros rfl⟩,
      fun staged => ⟨numberAt_code rfl (flagBit_lt staged), numberAt_zeros rfl⟩,
      fun l k => ⟨numberAt_nat32 rfl, numberAt_nat32 rfl, numberAt_zeros rfl⟩,
      fun n => ⟨numberAt_nat32 rfl, numberAt_zeros rfl⟩,
      fun q n t z k => ⟨numberAt_nat32 rfl, numberAt_nat32 rfl, numberAt_nat32 rfl, numberAt_nat32 rfl, numberAt_nat32 rfl,
        numberAt_zeros rfl⟩,
      fun t k => ⟨numberAt_nat32 rfl, numberAt_nat32 rfl, numberAt_zeros rfl⟩,
      fun l => ⟨numberAt_nat16 rfl, numberAt_zeros rfl⟩,
      fun c => ⟨numberAt_nat8 rfl, numberAt_zeros rfl⟩,
      fun n => ⟨numberAt_nat8 rfl, numberAt_zeros rfl⟩,
      fun n => ⟨numberAt_nat16 rfl, numberAt_zeros rfl⟩,
      fun st rating used limit price left q => ⟨(numberAt_code rfl (titleStateCode_lt st)).trans (by cases st <;> rfl),
        numberAt_nat8 rfl, numberAt_nat16 rfl, numberAt_nat16 rfl, numberAt_nat16 rfl, numberAt_nat32 rfl,
        numberAt_nat32 rfl, numberAt_zeros rfl⟩⟩
  · intro lost field
    have hcode : ∀ e, field e 2 1 = eventCode e := fun e => numberAt_eventCode e lost
    refine ⟨fun e => ⟨numberAt_byte (b := 2) rfl, numberAt_zeros rfl⟩,
      fun c => ⟨hcode _, numberAt_zeros rfl, (numberAt_code rfl (causeByte_lt c)).trans (causeByte_eq_sum c)⟩,
      fun l v => ⟨hcode _, numberAt_code rfl (by omega), numberAt_byte rfl, numberAt_zeros rfl⟩,
      fun l v => ⟨hcode _, numberAt_code rfl (by omega), numberAt_byte rfl, numberAt_zeros rfl⟩,
      fun t r => ⟨hcode _, numberAt_half rfl, (numberAt_code rfl (roleCode_lt r)).trans (roleCode_eq_idxOf r),
        numberAt_zeros rfl⟩,
      fun t q => ⟨hcode _, numberAt_half rfl, numberAt_zeros rfl, numberAt_nat32 rfl, numberAt_zeros rfl⟩,
      fun t r => ?_,
      fun t => ⟨hcode _, numberAt_half rfl, numberAt_zeros rfl⟩,
      fun t => ⟨hcode _, numberAt_half rfl, numberAt_zeros rfl⟩,
      fun r => ⟨hcode _, (numberAt_code rfl (liftReasonCode_lt r)).trans (liftReasonCode_eq_idxOf r), numberAt_zeros rfl⟩,
      fun n => ⟨hcode _, numberAt_nat16 rfl, numberAt_zeros rfl⟩,
      ⟨hcode _, numberAt_zeros rfl⟩,
      fun o n => ⟨hcode _, (numberAt_code rfl (regionOutcomeCode_lt o)).trans (regionOutcomeCode_eq_idxOf o),
        numberAt_nat8 rfl, numberAt_zeros rfl⟩,
      fun n => ⟨hcode _, numberAt_word rfl, numberAt_zeros rfl⟩⟩
    have hreason : field (.previewEnded t r) 10 1 = previewReasonCode r := numberAt_code rfl (previewReasonCode_lt r)
    exact ⟨hcode _, numberAt_half rfl, numberAt_zeros rfl, (hreason.trans <| · ▸ rfl), (hreason.trans <| · ▸ rfl),
      (hreason.trans <| · ▸ rfl), (hreason.trans <| · ▸ rfl), (hreason.trans <| · ▸ rfl)⟩
  · intro sequence second spent stay
    exact ⟨fun discreet title service net tax =>
        ⟨numberAt_nat32 rfl, numberAt_word rfl, numberAt_byte (b := 1) rfl, numberAt_code rfl (flagBit_lt discreet), numberAt_half rfl,
          numberAt_zeros rfl, numberAt_byte rfl, numberAt_nat32 rfl, numberAt_nat32 rfl, numberAt_nat32 rfl,
          numberAt_nat32 rfl⟩,
      fun count netTotal taxTotal =>
        ⟨numberAt_nat32 rfl, numberAt_word rfl, numberAt_byte (b := 2) rfl, numberAt_zeros rfl, numberAt_nat32 rfl, numberAt_nat32 rfl,
          numberAt_nat32 rfl, numberAt_nat32 rfl, numberAt_nat32 rfl⟩⟩

end Sys2Proof.Proofs
end

section
namespace Sys2Proof.Machine

/-! ## A step on an empty queue (R138, log entry 7) -/

theorem step_of_pending_nil {s : State} (h : s.pending = []) : step s = .next (clockPeriod s) := by
  rw [step, h]

section
variable {s : State} (htick : s.tick = TickWork.none)
include htick

theorem clockPeriod_of_held (hw : s.working = false) : clockPeriod s = s := by
  simp [clockPeriod, s.settle_of_none htick, hw]

variable (hw : s.working = true)
include hw

theorem clockPeriod_counts (hcount : s.tickCount + 1 ≠ 32768) :
    clockPeriod s = { s with tickCount := s.tickCount + 1 } := by
  rw [clockPeriod, s.settle_of_none htick, if_pos hw, if_neg hcount]

theorem clockPeriod_ticks (hcount : s.tickCount + 1 = 32768) : clockPeriod s = s.secondsTickStep := by
  rw [clockPeriod, s.settle_of_none htick, if_pos hw, if_pos hcount]

end

/-! ## TARIFF (R83, R131) -/

section
variable {s : State} {tax minutes : BitVec 16} {clamp house discreet : Byte}

theorem State.runTariff_badFormat (h : 7 < clamp.toNat ∨ 8 < discreet.toNat) :
    s.runTariff tax clamp house discreet minutes = (s, .badFormat, .absent) := if_pos h

variable (hc : clamp.toNat ≤ 7) (hd : discreet.toNat ≤ 8)
include hc hd

theorem State.runTariff_stayOpen (hy : s.stay.state ≠ .vacant) :
    s.runTariff tax clamp house discreet minutes = (s, .stayOpen, .absent) :=
  (if_neg (not_or.mpr ⟨Nat.not_lt.mpr hc, Nat.not_lt.mpr hd⟩)).trans (if_pos hy)

theorem State.runTariff_replaces (hy : s.stay.state = .vacant) :
    s.runTariff tax clamp house discreet minutes =
      ({ s with tariff := takenTariff tax clamp house discreet minutes }, .done,
        .tariff (takenTariff tax clamp house discreet minutes)) :=
  (if_neg (not_or.mpr ⟨Nat.not_lt.mpr hc, Nat.not_lt.mpr hd⟩)).trans (if_neg (not_not_intro hy))

end

/-- The lift minutes are brought within 1 to 240 (R131). -/
theorem clampMinutes_cases (m : BitVec 16) :
    (m.toNat = 0 → clampMinutes m = 1) ∧ (1 ≤ m.toNat → m.toNat ≤ 240 → clampMinutes m = m.toNat) ∧
      (240 < m.toNat → clampMinutes m = 240) := by
  unfold clampMinutes
  omega

end Sys2Proof.Machine

namespace Sys2Proof.Proofs
open Sys2Proof Sys2Proof.Machine

/-- Settles O2: the clock period of a step on an empty queue, by whether the part works and whether the count is full. -/
theorem emptyQueueStepIsAClockPeriod : Obligations.EmptyQueueStepIsAClockPeriod := by
  unfold Obligations.EmptyQueueStepIsAClockPeriod
  intro s hqueue htick
  rw [step_of_pending_nil hqueue]
  refine ⟨fun hw => ?held, fun hw hcount => ?counts, fun hw hcount => ?ticks⟩
  case held => rw [clockPeriod_of_held htick hw]
  case counts => rw [clockPeriod_counts htick hw hcount]
  case ticks => rw [clockPeriod_ticks htick hw hcount, exec_secondsTick_of_working htick hw]

/-- Settles O30, test by test of `runTariff`, and the tariff taken field by field. -/
theorem tariffReplacesTheTariff : Obligations.TariffReplacesTheTariff := by
  unfold Obligations.TariffReplacesTheTariff
  intro tag tax minutes clamp house discreet s c htakes
  have hanswer : ∀ {u a}, s.runTariff tax clamp house discreet minutes = (u, a) → Answers c tag 0x02 s u a :=
    answers_of_takes (exec_tariff tag tax clamp house discreet minutes s) htakes
  refine ⟨fun h => hanswer (State.runTariff_badFormat h), fun hc hd hy => hanswer (State.runTariff_stayOpen hc hd hy),
    fun hc hd hy => ?_⟩
  obtain ⟨hzero, hwithin, habove⟩ := clampMinutes_cases minutes
  exact ⟨takenTariff tax clamp house discreet minutes, rfl, rfl, rfl, rfl, hzero, hwithin, habove,
    hanswer (State.runTariff_replaces hc hd hy)⟩

end Sys2Proof.Proofs
end

section
/-! # What a step can do to the supply watch

The supply state and the check word are the watch's view of the state. Only the rows of the supply watch change it
(`exec_watch`), and outside RUN only those, the reset line and a decay change anything at all (`exec_stands_outside`). -/

namespace Sys2Proof.Machine

/-! ## The watch's view -/

/-- The supply state with its filter count, and the check word (section 11.1, R154, R155). -/
def State.watchView (s : State) : SupplyState × Option Word := (s.supply, s.checkWord)

theorem State.supply_of_watch {s t : State} (h : t.watchView = s.watchView) : t.supply = s.supply := congrArg Prod.fst h

theorem State.checkWord_of_watch {s t : State} (h : t.watchView = s.watchView) : t.checkWord = s.checkWord :=
  congrArg Prod.snd h

/-! ### The shared operations leave the view -/

@[simp] theorem State.hand_watch (s : State) (b : ReportBody) : (s.hand b).watchView = s.watchView := by
  simp [State.watchView]

@[simp] theorem State.raiseEvent_watch (s : State) (e : Event) : (s.raiseEvent e).watchView = s.watchView := s.hand_watch _

@[simp] theorem State.raiseEvent?_watch (s : State) (e : Option Event) : (s.raiseEvent? e).watchView = s.watchView := by
  cases e with
  | none => rfl
  | some e => exact s.raiseEvent_watch e

@[simp] theorem State.placeFirst_watch (s : State) (r : Report) : (s.placeFirst r).watchView = s.watchView := by
  simp [State.watchView]

@[simp] theorem State.handOver_watch (s : State) : s.handOver.watchView = s.watchView := by simp [State.watchView]

@[simp] theorem State.request_watch (s : State) (a : Agent) : (s.request a).watchView = s.watchView := by
  simp [State.watchView]

@[simp] theorem State.requestMedia_watch (s : State) : s.requestMedia.watchView = s.watchView := by simp [State.watchView]

@[simp] theorem State.finishFetch_watch (s : State) (tag : Word) (code : Byte) (a : Answer) :
    (s.finishFetch tag code a).watchView = s.watchView := by simp [State.watchView]

theorem State.advanceRegion_watch (s : State) : s.advanceRegion.watchView = s.watchView := by
  unfold State.advanceRegion
  split
  · rfl
  · split
    · exact State.raiseEvent_watch _ _
    · rfl

/-- The owners' work at a tick leaves the view. -/
theorem TickWorkOnly.watch {s t : State} (h : TickWorkOnly s t) : t.watchView = s.watchView := by rw [h.eq]; rfl

/-- A seconds tick leaves the view (R138). -/
theorem State.secondsTickStep_watch (s : State) : s.secondsTickStep.watchView = s.watchView := by
  unfold State.secondsTickStep
  dsimp only
  split
  · split
    · exact (State.runMeter_workOnly _).watch
    · rfl
  · exact (State.runMeter_workOnly _).watch

/-! ### The memory path leaves the view -/

/-- No event of the store port and its bursts touches the supply watch. -/
theorem PortMove.watch {s t : State} (h : PortMove s t) : t.watchView = s.watchView := by
  cases h with
  | commandPhase h =>
    rcases State.takeCommandPhase_some h with ⟨-, rfl⟩ | ⟨-, rfl⟩
    · exact State.requestMedia_watch _
    · rfl
  | complete h =>
    obtain ⟨-, -, m, u, -, -, hu, rfl⟩ := State.completeMedia_some h
    rw [(State.lastWords_some hu).1]
    exact State.handOver_watch _
  | resume h =>
    obtain ⟨m, -, -, rfl⟩ := State.resumeMedia_some h
    exact State.requestMedia_watch _
  | rewrite m h => rfl
  | reportTail w => rfl
  | beginFetch h =>
    obtain ⟨-, rfl⟩ := State.beginFetch_some h
    exact State.request_watch _ _
  | finishFetch h tag code a => exact s.finishFetch_watch tag code a
  | takeReport h =>
    obtain ⟨r, rest, -, -, rfl | ⟨w, rfl⟩⟩ := State.takeReport_some h
    · rfl
    · exact State.request_watch _ _
  | completeReport h =>
    obtain ⟨addr, data, w, -, -, rfl⟩ := State.completeReport_some h
    exact State.handOver_watch _
  | beginLog h =>
    obtain ⟨-, w, rfl⟩ := State.beginLog_some h
    exact State.request_watch _ _
  | completeLog h =>
    obtain ⟨addr, data, w, list, -, -, rfl⟩ := State.completeLog_some h
    exact (State.handOver_watch _).trans (State.advanceRegion_watch _)
  | discard h =>
    obtain ⟨a, addr, data, -, rfl⟩ := State.discardHouse_some h
    rw [State.dropOrphan_eq]
    exact State.handOver_watch _
  | orphanEnds h => exact s.handOver_watch
  | lineHolds words =>
    rw [s.lineHolds_eq words]
    rfl

/-- An anchor word's write leaves the view if what it acts on does. -/
theorem State.anchorStep_watch {s t : State} {at? : Nat → Bool} {w : WriteWord} {act : State → Nat → State}
    (hact : ∀ u a, (act u a).watchView = u.watchView) (h : s.anchorStep at? w act = some t) : t.watchView = s.watchView := by
  unfold State.anchorStep at h
  split at h
  · contradiction
  · split at h
    · obtain rfl := Option.some.inj h
      split
      · rfl
      · exact hact _ _
    · contradiction

theorem State.latchBase_watch (s : State) (w : WriteWord) (a : Nat) : (s.latchBase w a).watchView = s.watchView := by
  unfold State.latchBase
  split
  · rfl
  · split <;> rfl

theorem State.writeCommandSlots_watch (s : State) (w : WriteWord) : (s.writeCommandSlots w).watchView = s.watchView := by
  have horphan : ∀ u : State, u.orphanFetch.watchView = u.watchView := fun u => by
    rcases u.orphanFetch_cases with ⟨-, h⟩ | ⟨a, d, o, -, h⟩ | h <;> rw [h] <;> rfl
  exact horphan _

theorem State.placeRestartReports_watch (s : State) : s.placeRestartReports.watchView = s.watchView := by
  unfold State.placeRestartReports
  dsimp only
  split <;> split <;> simp

theorem State.writeReportSlots_watch (s : State) (w : WriteWord) : (s.writeReportSlots w).watchView = s.watchView := by
  have horphan : ∀ u : State, u.orphanReport.watchView = u.watchView := fun u => by
    rcases u.orphanReport_cases with ⟨w, -, -, h⟩ | ⟨a, d, w, -, -, h⟩ | h <;> rw [h]
    · exact State.placeFirst_watch _ _
    · rfl
  unfold State.writeReportSlots State.openReportRing
  dsimp only
  split
  · exact (State.placeRestartReports_watch _).trans (horphan _)
  · exact horphan _

/-! ### The lane engine leaves the view -/

theorem State.register_watch (s : State) (t : TitleTerms) : (s.register t).watchView = s.watchView := by
  unfold State.register
  split
  · rfl
  · split
    · rfl
    · unfold State.refuse
      split
      · rfl
      · exact State.raiseEvent_watch _ _

theorem State.titleNotice_watch (s : State) (i : Fin 4) (t : TitleTerms) : (s.titleNotice i t).watchView = s.watchView := by
  unfold State.titleNotice
  dsimp only
  split
  · rfl
  · split
    · rfl
    · exact State.register_watch (s.setSlot i _) t

theorem State.applyNotice_watch (s : State) (service : Byte) (p : List Byte) :
    (s.applyNotice service p).watchView = s.watchView := by
  unfold State.applyNotice
  split
  · exact s.titleNotice_watch _ _
  · rfl
  · rfl

theorem State.takeHeader_watch (s : State) (n : Fin 4) (addr : Nat) (w : WriteWord) :
    (s.takeHeader n addr w).watchView = s.watchView := by
  unfold State.takeHeader
  split
  · rfl
  · split
    · rfl
    · exact State.raiseEvent?_watch _ _

theorem State.takePayload_watch (s : State) (n : Fin 4) (addr : Nat) (w : WriteWord) :
    (s.takePayload n addr w).watchView = s.watchView := by
  unfold State.takePayload
  split
  · split
    · dsimp only
      split
      · exact State.applyNotice_watch _ _ _
      · rfl
    · rfl
  · rfl

theorem State.laneWriteStep_watch {s t : State} {header : Bool} {w : WriteWord} {take : State → Fin 4 → Nat → State}
    (htake : ∀ u n a, (take u n a).watchView = u.watchView) (h : s.laneWriteStep header w take = some t) :
    t.watchView = s.watchView := by
  unfold State.laneWriteStep at h
  split at h
  · contradiction
  · split at h
    · split at h
      · obtain rfl := Option.some.inj h
        split
        · exact htake _ _ _
        · rfl
      · contradiction
    · contradiction

theorem State.firstPayload_watch (s : State) (t : MediaTxn) (n : Fin 4) (j : Judgement) :
    (s.firstPayload t n j).watchView = s.watchView := by
  unfold State.firstPayload
  split
  · split
    · rfl
    · dsimp only
      split <;> rfl
  · rfl

theorem State.laneReadStep_watch {s t : State} (h : s.laneReadStep = some t) : t.watchView = s.watchView := by
  unfold State.laneReadStep at h
  split at h
  · contradiction
  · split at h
    · dsimp only at h
      split at h
      · obtain rfl := Option.some.inj h
        exact State.firstPayload_watch _ _ _ _
      · obtain rfl := Option.some.inj h
        rfl
    · contradiction

/-! ### The commands of the command ring leave the view -/

/-- A choice between answers leaves the view if both do. -/
theorem State.ite_fst_watch {p : Prop} [Decidable p] {s : State} {x y : State × Answer} (h : x.1.watchView = s.watchView)
    (k : y.1.watchView = s.watchView) : (if p then x else y).1.watchView = s.watchView := by
  split
  · exact h
  · exact k

theorem State.inStay_watch (s : State) {run : State → State × Answer} (h : (run s).1.watchView = s.watchView) :
    (s.inStay run).1.watchView = s.watchView := by
  rcases s.inStay_cases run with ⟨-, e⟩ | ⟨-, e⟩ | ⟨-, e⟩ <;> rw [e]
  exact h

theorem State.comparePin_watch (s : State) (p : PinField) {matched : State → State × Answer}
    (h : ∀ u, (matched u).1.watchView = u.watchView) : (s.comparePin p matched).1.watchView = s.watchView := by
  rcases s.comparePin_cases p matched with ⟨-, e⟩ | ⟨-, -, e⟩ | ⟨-, -, e⟩ <;> rw [e]
  · exact h _
  · unfold State.wrongPin
    split
    · rfl
    · exact State.raiseEvent_watch _ _

theorem State.runUnlock_watch (s : State) (p : PinField) : (s.runUnlock p).1.watchView = s.watchView :=
  State.ite_fst_watch rfl (s.inStay_watch (s.comparePin_watch p fun _ => rfl))

theorem State.endLift_watch (s : State) (r : LiftReason) : (s.endLift r).watchView = s.watchView :=
  State.raiseEvent_watch _ _

theorem State.runRelock_watch (s : State) : s.runRelock.1.watchView = s.watchView :=
  s.inStay_watch (State.ite_fst_watch (s.endLift_watch _) rfl)

theorem State.runSetCeiling_watch (s : State) (c : Byte) (p : PinField) : (s.runSetCeiling c p).1.watchView = s.watchView :=
  State.ite_fst_watch rfl <| s.inStay_watch <| State.ite_fst_watch rfl <|
    State.ite_fst_watch rfl (s.comparePin_watch p fun _ => rfl)

theorem State.runChangePin_watch (s : State) (old new : PinField) : (s.runChangePin old new).1.watchView = s.watchView :=
  State.ite_fst_watch rfl (s.inStay_watch (s.comparePin_watch old fun _ => rfl))

theorem State.runAckCharges_watch (s : State) (q : Nat) : (s.runAckCharges q).1.watchView = s.watchView := by
  unfold State.runAckCharges
  dsimp only
  split
  · exact State.raiseEvent_watch _ _
  · rfl

theorem State.runSetCredit_watch (s : State) (w : Word) : (s.runSetCredit w).1.watchView = s.watchView :=
  s.inStay_watch (State.ite_fst_watch rfl rfl)

theorem State.runBuy_watch (s : State) (n : BitVec 16) : (s.runBuy n).1.watchView = s.watchView := by
  unfold State.runBuy
  split <;> rfl

theorem State.runTariff_watch (s : State) (t : BitVec 16) (a b c : Byte) (m : BitVec 16) :
    (s.runTariff t a b c m).1.watchView = s.watchView :=
  State.ite_fst_watch rfl (State.ite_fst_watch rfl rfl)

theorem State.runOpenStay_watch (s : State) (n : Word) (c : Byte) (k : Word) (d : Byte) (p : PinField) :
    (s.runOpenStay n c k d p).1.watchView = s.watchView :=
  State.ite_fst_watch rfl (State.ite_fst_watch rfl rfl)

theorem State.runCloseStay_watch (s : State) : s.runCloseStay.1.watchView = s.watchView := by
  have hlift : (if s.liftActive then s.endLift .close else s).watchView = s.watchView := by
    split
    · exact s.endLift_watch _
    · rfl
  unfold State.runCloseStay
  split
  · rfl
  · rfl
  · exact hlift

theorem State.runQueryTitle_watch (s : State) (n : BitVec 16) : (s.runQueryTitle n).1.watchView = s.watchView := by
  unfold State.runQueryTitle
  split
  · rfl
  · exact State.ite_fst_watch rfl rfl

theorem State.runLogRegion_watch (s : State) (base slots : Nat) : (s.runLogRegion base slots).1.watchView = s.watchView := by
  rcases s.runLogRegion_cases base slots with ⟨r, -, h⟩ | ⟨-, -, h⟩ | ⟨r, -, -, h⟩ <;> rw [h] <;> rfl

theorem State.runBind_watch (s : State) (lane role service : Byte) (base slots : Nat) :
    (s.runBind lane role service base slots).1.watchView = s.watchView := by
  unfold State.runBind
  split
  · rfl
  · dsimp only
    split
    · rfl
    · unfold State.bindLane State.joinSlot
      split
      · rfl
      · split <;> rfl

theorem State.runUnbind_watch (s : State) (lane : Byte) : (s.runUnbind lane).1.watchView = s.watchView := by
  unfold State.runUnbind
  split
  · rfl
  · split
    · rfl
    · unfold State.unbindLane State.leaveSlot
      split <;> rfl

/-! ### Restarts, the reset line and decays leave the view -/

theorem State.restart_watch (s : State) (cause : Cause) : (s.restart cause).watchView = s.watchView := by
  rcases s.restart_cases cause with ⟨-, e⟩ | ⟨-, e⟩ <;> rw [e] <;> rfl

theorem State.assertStep_watch {s t : State} {ws : List WriteWord} (h : s.assertStep ws = some t) :
    t.watchView = s.watchView := by
  unfold State.assertStep at h
  split at h
  · contradiction
  · split at h
    · exact Option.some.inj h ▸ (PortMove.lineHolds s ws).watch
    · exact Option.some.inj h ▸ rfl

theorem State.releaseStep_watch {s t : State} (h : s.releaseStep = some t) : t.watchView = s.watchView := by
  unfold State.releaseStep at h
  split at h
  · contradiction
  · split at h
    · exact Option.some.inj h ▸ s.restart_watch .line
    · exact Option.some.inj h ▸ rfl

theorem State.decayStep_watch {s t : State} (h : s.decayStep = some t) : t.watchView = s.watchView := by
  unfold State.decayStep at h
  split at h
  · contradiction
  · obtain ⟨hword, hsupply, -⟩ := s.decay_keeps (Config.decayedStore s.freeDraws)
    exact Option.some.inj h ▸ Prod.ext hsupply hword

/-! ## Every row but the supply watch's leaves the view -/

/-- The rows by which the supply watch moves (R153 to R156). -/
def movesWatch : Instr → Bool
  | .enterRetain _ | .supplyRecover | .supplyRelapse | .enterRun _ | .powerOn | .supplySample _ => true
  | _ => false

theorem performInTick_watch {f : State → Option State} {s t : State} (hf : ∀ u v, f u = some v → v.watchView = u.watchView)
    (h : performInTick f s = .next t) : t.watchView = s.watchView := by
  obtain rfl := Host.Outcome.next.inj h
  cases hv : f s with
  | none => rfl
  | some v => exact hf s v hv

theorem perform_watch {f : State → Option State} {s t : State} (hf : ∀ u v, f u = some v → v.watchView = u.watchView)
    (h : perform f s = .next t) : t.watchView = s.watchView :=
  (performInTick_watch (s := s.settle) hf h).trans s.settle_workOnly.watch

/-- An event taken under a condition leaves the view if it does where it is taken. -/
theorem watch_of_guarded {p : Prop} [Decidable p] {s t u : State} (hu : u.watchView = s.watchView)
    (h : (if p then some u else none) = some t) : t.watchView = s.watchView := by
  split at h
  · exact Option.some.inj h ▸ hu
  · contradiction

theorem execCommand_watch {c : Instr} {tag : Word} {code : Byte} {run : State → State × Answer} {s t : State}
    (h : execCommand c tag code run s = .next t) (hr : ∀ u, (run u).1.watchView = u.watchView) :
    t.watchView = s.watchView :=
  perform_watch (fun u _ => watch_of_guarded ((State.finishFetch_watch _ _ _ _).trans (hr u))) h

theorem execMediaCommandPhase_watch {dir : Direction} {addr : Word} {count : Nat} {s t : State}
    (h : execMediaCommandPhase dir addr count s = .next t) : t.watchView = s.watchView := by
  unfold execMediaCommandPhase at h
  split at h
  · contradiction
  · split at h
    · contradiction
    · exact perform_watch (fun _ _ hv => (PortMove.commandPhase hv).watch) h

theorem execRestart_watch {tag : Word} {s t : State} (h : execRestart tag s = .next t) : t.watchView = s.watchView :=
  perform_watch (fun u _ => watch_of_guarded ((State.handOver_watch _).trans (u.restart_watch .command))) h

/-- Every row but those of the supply watch leaves the supply state and the check word (R153, R154, R155). -/
theorem exec_watch {i : Instr} (hi : movesWatch i = false) {s t : State} (h : exec i s = .next t) :
    t.watchView = s.watchView := by
  cases i with
  | mediaCommandPhase dir addr count => exact execMediaCommandPhase_watch h
  | mediaTransactionComplete words => exact perform_watch (fun _ _ hv => (PortMove.complete hv).watch) h
  | mediaResume => exact perform_watch (fun _ _ hv => (PortMove.resume hv).watch) h
  | anchorWrite w => exact perform_watch (fun _ _ => State.anchorStep_watch fun u a => u.latchBase_watch w a) h
  | commandRingSlots w => exact perform_watch (fun _ _ => State.anchorStep_watch fun u _ => u.writeCommandSlots_watch w) h
  | reportRingSlots w => exact perform_watch (fun _ _ => State.anchorStep_watch fun u _ => u.writeReportSlots_watch w) h
  | commandTail w => exact perform_watch (fun _ _ => State.anchorStep_watch (act := fun s _ => s.writeCommandTail w) fun _ _ => rfl) h
  | reportTail w => exact perform_watch (fun _ _ => State.anchorStep_watch (act := fun s _ => s.writeReportTail w) fun _ _ => rfl) h
  | headerWrite w => exact perform_watch (fun _ _ => State.laneWriteStep_watch fun u n a => u.takeHeader_watch n a w) h
  | payloadWrite w => exact perform_watch (fun _ _ => State.laneWriteStep_watch fun u n a => u.takePayload_watch n a w) h
  | laneReadWord => exact perform_watch (fun _ _ => State.laneReadStep_watch) h
  | commandFetchRequest => exact perform_watch (fun _ _ hv => (PortMove.beginFetch hv).watch) h
  | siteKey tag key => exact execCommand_watch ((exec_siteKey ..).symm.trans h) fun _ => rfl
  | tariff tag a b c d e => exact execCommand_watch ((exec_tariff ..).symm.trans h) fun u => u.runTariff_watch a b c d e
  | openStay tag n c k d p => exact execCommand_watch ((exec_openStay ..).symm.trans h) fun u => u.runOpenStay_watch n c k d p
  | closeStay tag => exact execCommand_watch ((exec_closeStay ..).symm.trans h) State.runCloseStay_watch
  | stayQuery tag => exact execCommand_watch ((exec_stayQuery ..).symm.trans h) fun _ => rfl
  | ackCharges tag q => exact execCommand_watch ((exec_ackCharges ..).symm.trans h) fun u => u.runAckCharges_watch _
  | logRegion tag base slots => exact execCommand_watch ((exec_logRegion ..).symm.trans h) fun u => u.runLogRegion_watch _ _
  | setCredit tag limit => exact execCommand_watch ((exec_setCredit ..).symm.trans h) fun u => u.runSetCredit_watch limit
  | buy tag title => exact execCommand_watch ((exec_buy ..).symm.trans h) fun u => u.runBuy_watch title
  | bind tag lane role service base slots =>
    exact execCommand_watch ((exec_bind ..).symm.trans h) fun u => u.runBind_watch _ _ _ _ _
  | unbind tag lane => exact execCommand_watch ((exec_unbind ..).symm.trans h) fun u => u.runUnbind_watch lane
  | unlock tag pin => exact execCommand_watch ((exec_unlock ..).symm.trans h) fun u => u.runUnlock_watch pin
  | relock tag => exact execCommand_watch ((exec_relock ..).symm.trans h) State.runRelock_watch
  | setCeiling tag c pin => exact execCommand_watch ((exec_setCeiling ..).symm.trans h) fun u => u.runSetCeiling_watch c pin
  | changePin tag old new => exact execCommand_watch ((exec_changePin ..).symm.trans h) fun u => u.runChangePin_watch old new
  | queryTitle tag title => exact execCommand_watch ((exec_queryTitle ..).symm.trans h) fun u => u.runQueryTitle_watch title
  | restart tag => exact execRestart_watch h
  | unknown tag code => exact execCommand_watch ((exec_unknown ..).symm.trans h) fun _ => rfl
  | reportTake => exact perform_watch (fun _ _ hv => (PortMove.takeReport hv).watch) h
  | reportWriteComplete => exact perform_watch (fun _ _ hv => (PortMove.completeReport hv).watch) h
  | logWriteBegin => exact perform_watch (fun _ _ hv => (PortMove.beginLog hv).watch) h
  | logWriteComplete => exact perform_watch (fun _ _ hv => (PortMove.completeLog hv).watch) h
  | secondsTick => exact perform_watch (fun u _ => watch_of_guarded u.secondsTickStep_watch) h
  | previewEnd => exact performInTick_watch (fun _ _ hv => (State.previewEndStep_workOnly hv).watch) h
  | rentalLapsed => exact performInTick_watch (fun _ _ hv => (State.rentalLapsedStep_workOnly hv).watch) h
  | liftExpired => exact performInTick_watch (fun _ _ hv => (State.liftExpiredStep_workOnly hv).watch) h
  | lockoutEnded => exact performInTick_watch (fun _ _ hv => (State.lockoutEndedStep_workOnly hv).watch) h
  | resetAssert passed => exact perform_watch (fun _ _ => State.assertStep_watch) h
  | resetRelease => exact perform_watch (fun _ _ => State.releaseStep_watch) h
  | houseAccessDiscarded => exact perform_watch (fun _ _ hv => (PortMove.discard hv).watch) h
  | retainedStoreDecay => exact perform_watch (fun _ _ => State.decayStep_watch) h
  | enterRetain _ | supplyRecover | supplyRelapse | enterRun _ | powerOn | supplySample _ => exact Bool.noConfusion hi

end Sys2Proof.Machine
end

section
namespace Sys2Proof.Machine

/-! ## Outside RUN (R154, R155) -/

/-- The rows that can change a part outside RUN: those of the supply watch, the reset line and a decay (R153 to R159). -/
def takenOutside : Instr → Bool
  | .resetAssert _ | .resetRelease | .retainedStoreDecay => true
  | i => movesWatch i

/-- Any other row leaves a part outside RUN as it is (R6, R154; log entry 5). -/
theorem exec_stands_outside {i : Instr} (hi : takenOutside i = false) {s t : State} (htick : s.tick = TickWork.none)
    (hrun : s.inRun = false) (h : exec i s = .next t) : t = s := by
  have hheld : s.working = false := State.working_eq_false (.inl hrun)
  have hstands : exec i s = .next s → t = s := fun hs => Host.Outcome.next.inj (h.symm.trans hs)
  have hevent := fun (words : List WriteWord) (w : WriteWord) => exec_event_of_held words w htick hheld
  obtain ⟨hpreview, hrental, hlift, hlockout⟩ := exec_tickRow_of_none htick
  by_cases hrecord : (recordFields i).isSome = true
  · exact hstands (exec_record_of_unready htick hrecord (s.fetchReady_of_held i hheld))
  cases i with
  | mediaCommandPhase dir addr count =>
    have h : execMediaCommandPhase dir addr count s = .next t := h
    unfold execMediaCommandPhase at h
    split at h
    · contradiction
    · split at h
      · contradiction
      · rw [perform_of_untaken _ s htick (State.takeCommandPhase_of_held _ _ _ hheld)] at h
        exact (Host.Outcome.next.inj h).symm
  | mediaTransactionComplete words => exact hstands (hevent words ⟨0, 0⟩ _ (by simp))
  | anchorWrite w | commandRingSlots w | reportRingSlots w | commandTail w | reportTail w | headerWrite w | payloadWrite w =>
    exact hstands (hevent [] w _ (by simp))
  | mediaResume | laneReadWord | commandFetchRequest | reportTake | reportWriteComplete | logWriteBegin | logWriteComplete
  | secondsTick =>
    exact hstands (hevent [] ⟨0, 0⟩ _ (by simp))
  | previewEnd => exact hstands hpreview
  | rentalLapsed => exact hstands hrental
  | liftExpired => exact hstands hlift
  | lockoutEnded => exact hstands hlockout
  | houseAccessDiscarded => exact hstands (perform_of_untaken State.discardHouse s htick (State.discardHouse_of_held hrun))
  | enterRetain _ | supplyRecover | supplyRelapse | enterRun _ | powerOn | supplySample _ | resetAssert _ | resetRelease
  | retainedStoreDecay =>
    exact Bool.noConfusion hi
  | _ => exact absurd rfl hrecord

/-! ## The moves of the supply watch (R153 to R156) -/

/-- What a sample, or a transition that samples make, can do: the filter's count moves, the part leaves RUN or enters it, or the
counts of RETAIN and RECOVER move outside RUN. -/
inductive WatchMove (s : State) : State → Prop
  | stands : WatchMove s s
  | lowCount (low : Nat) (hlow : low ≤ 31) (hrun : s.inRun = true) : WatchMove s { s with supply := .run low }
  | leaveRun (words : List WriteWord) (hrun : s.inRun = true) : WatchMove s (s.enterRetainStep words)
  | relapse (hrun : s.inRun = false) : WatchMove s { s with supply := .retain }
  | goodCount (good : Nat) (hgood : good ≤ 4095) (hrun : s.inRun = false) : WatchMove s { s with supply := .recover good }
  | enterRun (changed : List (BitVec 26 × Byte)) : WatchMove s (s.enterRunStep changed)

/-- A part in RUN holds no check word. -/
theorem State.checkWord_of_supplySafe {s : State} (h : SupplySafe s) (hrun : s.inRun = true) : s.checkWord = none := by
  unfold SupplySafe at h
  unfold State.inRun at hrun
  cases hs : s.supply with
  | run low =>
    rw [hs] at h
    exact h.2
  | retain => simp [hs] at hrun
  | recover good => simp [hs] at hrun

/-- In RUN the supply watch's invariant is a matter of its view. -/
theorem SupplySafe.of_watch {s t : State} (hrun : s.inRun = true) (hview : t.watchView = s.watchView) (h : SupplySafe s) :
    SupplySafe t := by
  unfold SupplySafe at *
  unfold State.inRun at hrun
  rw [State.supply_of_watch hview, State.checkWord_of_watch hview]
  cases hs : s.supply with
  | run low =>
    rw [hs] at h
    exact h
  | retain => simp [hs] at hrun
  | recover good => simp [hs] at hrun

/-- Outside RUN the supply watch's invariant rests on the supply state, the tick and the LOG write. -/
theorem SupplySafe.of_idle {s t : State} (hrun : s.inRun = false) (hsupply : t.supply = s.supply) (htick : t.tick = s.tick)
    (hwrite : t.charges.write = s.charges.write) (h : SupplySafe s) : SupplySafe t := by
  unfold SupplySafe at *
  unfold State.inRun at hrun
  rw [hsupply, htick, hwrite]
  cases hs : s.supply with
  | run low => simp [hs] at hrun
  | retain =>
    rw [hs] at h
    exact h
  | recover good =>
    rw [hs] at h
    exact h

theorem WatchMove.supplySafe {s t : State} (h : WatchMove s t) (hs : SupplySafe s) : SupplySafe t := by
  cases h with
  | stands => exact hs
  | lowCount low hlow hrun => exact ⟨hlow, (State.checkWord_of_supplySafe hs hrun :)⟩
  | leaveRun words hrun => exact ⟨rfl, rfl⟩
  | relapse hrun => exact ⟨(State.tick_of_supplySafe hs hrun :), (State.write_of_supplySafe hs hrun :)⟩
  | goodCount good hgood hrun => exact ⟨hgood, (State.tick_of_supplySafe hs hrun :), (State.write_of_supplySafe hs hrun :)⟩
  | enterRun changed => exact ⟨Nat.zero_le _, rfl⟩

/-- A move of the supply watch that begins and ends outside RUN leaves the check word (R155). -/
theorem WatchMove.checkWord {s t : State} (h : WatchMove s t) (hrun : s.inRun = false) (houtside : t.inRun = false) :
    t.checkWord = s.checkWord := by
  cases h with
  | stands => rfl
  | lowCount low hlow hin => exact Bool.noConfusion (hrun.symm.trans hin)
  | leaveRun words hin => exact Bool.noConfusion (hrun.symm.trans hin)
  | relapse _ => rfl
  | goodCount good hgood _ => rfl
  | enterRun changed => exact Bool.noConfusion houtside

/-- A sample moves the supply watch by the state it finds (R153, R155). -/
theorem State.sampleStep_move {s : State} (hs : SupplySafe s) (x : Sample) : WatchMove s (s.sampleStep x) := by
  unfold State.sampleStep
  unfold SupplySafe at hs
  split
  · rename_i low hsupply
    have hrun : s.inRun = true := by simp [State.inRun, hsupply]
    rw [hsupply] at hs
    cases x with
    | low =>
      simp only [State.sampleRun]
      split
      · exact .leaveRun [] hrun
      · exact .lowCount _ (by omega) hrun
    | between => exact .lowCount 0 (Nat.zero_le _) hrun
    | good => exact .lowCount 0 (Nat.zero_le _) hrun
  · rename_i hsupply
    split
    · exact .goodCount 1 (by decide) (by simp [State.inRun, hsupply])
    · exact .stands
  · rename_i good hsupply
    have hrun : s.inRun = false := by simp [State.inRun, hsupply]
    rw [hsupply] at hs
    cases x with
    | low => exact .relapse hrun
    | between => exact .goodCount 0 (Nat.zero_le _) hrun
    | good =>
      simp only [State.sampleRecover]
      split
      · exact .enterRun []
      · exact .goodCount _ (by omega) hrun

/-- Completing a tick keeps the supply watch's invariant, and does nothing outside RUN. -/
theorem SupplySafe.settle {s : State} (h : SupplySafe s) : SupplySafe s.settle := by
  cases hrun : s.inRun with
  | true => exact h.of_watch hrun s.settle_workOnly.watch
  | false => rwa [s.settle_of_none (State.tick_of_supplySafe h hrun)]

/-- An event that, where it is taken, moves the supply watch. -/
theorem perform_move {f : State → Option State} {s t : State} (hs : SupplySafe s)
    (hf : ∀ u v, SupplySafe u → f u = some v → WatchMove u v) (h : perform f s = .next t) : WatchMove s.settle t := by
  obtain rfl := Host.Outcome.next.inj h
  cases hv : f s.settle with
  | none => exact .stands
  | some v => exact hf _ v hs.settle hv

/-- A transition taken in one supply state. -/
theorem WatchMove.of_guarded {p : Prop} [Decidable p] {s t u : State} (hmove : p → WatchMove s u)
    (h : (if p then some u else none) = some t) : WatchMove s t := by
  split at h
  · exact Option.some.inj h ▸ hmove ‹_›
  · contradiction

/-- Every row of the supply watch but POWER_ON completes a tick and moves the watch (R153, R155). -/
theorem exec_move {i : Instr} (hi : movesWatch i = true) (hpower : i ≠ .powerOn) {s t : State} (hs : SupplySafe s)
    (h : exec i s = .next t) : WatchMove s.settle t := by
  cases i with
  | enterRetain words =>
    have h : execEnterRetain words s = .next t := h
    exact perform_move hs (fun u _ _ => .of_guarded fun hu => .leaveRun words (by simp [State.inRun, hu])) h
  | supplyRecover =>
    have h : execSupplyRecover s = .next t := h
    exact perform_move hs (fun u _ _ => .of_guarded fun hu => .goodCount 1 (by decide) (by simp [State.inRun, hu])) h
  | supplyRelapse =>
    have h : execSupplyRelapse s = .next t := h
    refine perform_move hs (fun u _ _ => .of_guarded fun hu => .relapse ?_) h
    cases hsupply : u.supply <;> simp_all [State.inRun, State.inRecover]
  | enterRun changed => exact perform_move hs (fun _ _ _ => .of_guarded fun _ => .enterRun changed) h
  | supplySample v => exact perform_move hs (fun _ _ hu hv => Option.some.inj hv ▸ State.sampleStep_move hu _) h
  | powerOn => exact absurd rfl hpower
  | _ => exact Bool.noConfusion hi

theorem exec_powerOn (s : State) : exec .powerOn s = .next s.settle.powerOnStep := rfl

/-! ## Every row keeps the supply watch's invariant -/

/-- The reset line and a decay leave the tick and the LOG write of a part outside RUN (R157, R159). -/
theorem SupplySafe.taken_outside {s t : State} (hs : SupplySafe s) (hrun : s.inRun = false) {f : State → Option State}
    (hf : ∀ v, f s = some v → v.supply = s.supply ∧ v.tick = s.tick ∧ v.charges.write = s.charges.write)
    (h : perform f s = .next t) : SupplySafe t := by
  rw [perform_of_none f s (State.tick_of_supplySafe hs hrun)] at h
  obtain rfl := Host.Outcome.next.inj h
  cases hv : f s with
  | none => exact hs
  | some v =>
    obtain ⟨hsupply, htick, hwrite⟩ := hf v hv
    exact hs.of_idle hrun hsupply htick hwrite

/-- Every row keeps the supply watch's counts in range (R153 to R155). -/
theorem exec_supplySafe {i : Instr} {s t : State} (hs : SupplySafe s) (h : exec i s = .next t) : SupplySafe t := by
  cases hi : movesWatch i with
  | true =>
    by_cases hpower : i = .powerOn
    · subst hpower
      obtain rfl := Host.Outcome.next.inj ((exec_powerOn s).symm.trans h)
      exact ⟨rfl, rfl⟩
    · exact (exec_move hi hpower hs h).supplySafe hs.settle
  | false =>
    cases hrun : s.inRun with
    | true => exact hs.of_watch hrun (exec_watch hi h)
    | false =>
      by_cases htaken : takenOutside i = true
      · cases i with
        | resetAssert words =>
          refine hs.taken_outside hrun (f := fun s => s.assertStep words) (fun v hv => ?_) h
          cases hline : s.resetLine with
          | true => simp [State.assertStep, hline] at hv
          | false =>
            rw [s.assertStep_off words hline hrun] at hv
            obtain rfl := Option.some.inj hv
            exact ⟨rfl, rfl, rfl⟩
        | resetRelease =>
          refine hs.taken_outside hrun (f := State.releaseStep) (fun v hv => ?_) h
          cases hline : s.resetLine with
          | false => simp [State.releaseStep, hline] at hv
          | true =>
            rw [State.releaseStep_off hline hrun] at hv
            obtain rfl := Option.some.inj hv
            exact ⟨rfl, rfl, rfl⟩
        | retainedStoreDecay =>
          rw [exec_decay_outside (State.tick_of_supplySafe hs hrun) hrun] at h
          obtain rfl := Host.Outcome.next.inj h
          obtain ⟨-, hsupply, htick, -, -, hwrite⟩ := s.decay_keeps (Config.decayedStore s.freeDraws)
          exact hs.of_idle hrun hsupply htick hwrite
        | _ => exact absurd (htaken.symm.trans hi) Bool.noConfusion
      · obtain rfl := exec_stands_outside (Bool.eq_false_iff.mpr htaken) (State.tick_of_supplySafe hs hrun) hrun h
        exact hs

theorem clockPeriod_watch (s : State) : (clockPeriod s).watchView = s.watchView := by
  have hsettled := s.settle_workOnly.watch
  unfold clockPeriod
  dsimp only
  split
  · split
    · exact (State.secondsTickStep_watch _).trans hsettled
    · exact hsettled
  · exact hsettled

/-- Every step keeps the supply watch's counts in range, with no check word in RUN and no tick or LOG write outside it. -/
theorem step_supplySafe {s t : State} (hs : SupplySafe s) (h : step s = .next t) : SupplySafe t := by
  unfold step at h
  split at h
  · obtain rfl := Host.Outcome.next.inj h
    cases hrun : s.inRun with
    | true => exact hs.of_watch hrun (clockPeriod_watch s)
    | false => rwa [clockPeriod_outside hs hrun]
  · rename_i rest _
    exact exec_supplySafe (s := { s with pending := rest }) hs h

/-- Between the end of RUN and the next entry to RUN a row other than a decay leaves the retained store (R155). -/
theorem exec_retained_outside {i : Instr} (hi : i ≠ .retainedStoreDecay) {s t : State} (hs : SupplySafe s)
    (hrun : s.inRun = false) (houtside : t.inRun = false) (h : exec i s = .next t) : t.retained = s.retained := by
  rcases exec_outside_run hi (State.tick_of_supplySafe hs hrun) hrun h with hsealed | ⟨changed, rfl⟩
  · exact hsealed.retained
  · exact Bool.noConfusion houtside

/-- Between the end of RUN and the next entry to RUN a row other than POWER_ON leaves the check word (R155, R156). -/
theorem exec_checkWord_outside {i : Instr} (hi : i ≠ .powerOn) {s t : State} (hs : SupplySafe s)
    (hrun : s.inRun = false) (houtside : t.inRun = false) (h : exec i s = .next t) : t.checkWord = s.checkWord := by
  cases hmoves : movesWatch i with
  | true =>
    have hmove := exec_move hmoves hi hs h
    rw [s.settle_of_none (State.tick_of_supplySafe hs hrun)] at hmove
    exact hmove.checkWord hrun houtside
  | false => exact State.checkWord_of_watch (exec_watch hmoves h)

end Sys2Proof.Machine

namespace Sys2Proof.Proofs
open Sys2Proof Sys2Proof.Machine

/-- Settles O60: row by row for the invariant, and outside RUN by what the rows taken there leave. -/
theorem stepsKeepTheSealedStore : Obligations.StepsKeepTheSealedStore := by
  refine ⟨fun _ _ => step_supplySafe, fun s t hs hrun hstep houtside => ?_⟩
  unfold step at hstep
  split at hstep
  · obtain rfl := Host.Outcome.next.inj hstep
    rw [clockPeriod_outside hs hrun]
    exact ⟨fun _ => rfl, fun _ => rfl⟩
  · rename_i i rest hfront
    refine ⟨fun hdecay => ?_, fun hpower => ?_⟩
    · exact exec_retained_outside (s := { s with pending := rest }) (fun hi => hdecay rest (hi ▸ hfront)) hs hrun houtside hstep
    · exact exec_checkWord_outside (s := { s with pending := rest }) (fun hi => hpower rest (hi ▸ hfront)) hs hrun houtside hstep

end Sys2Proof.Proofs
end

section
/-! # The bits of the retained store

Each item of the retained store is read back from its bits, whatever stands behind them (`Readable`), so that contents that differ
differ in their bits; and the cyclic check keeps apart registers that differ and runs of at most 32 bits. -/

namespace Sys2Proof.Machine

/-! ## Layouts that are read back -/

/-- A layout of the values in `ok` is read back whole, whatever stands behind it. -/
def Readable {α β : Type} (ok : α → Prop) (layout : α → List β) : Prop :=
  ∀ {x y : α} {r q : List β}, ok x → ok y → layout x ++ r = layout y ++ q → x = y ∧ r = q

/-- A layout of one length that tells its values apart is read back. -/
theorem Readable.of_length {α β : Type} {ok : α → Prop} {layout : α → List β} {n : Nat} (hlength : ∀ x, (layout x).length = n)
    (hinj : ∀ x y, ok x → ok y → layout x = layout y → x = y) : Readable ok layout := fun {x y} _ _ hx hy h => by
  obtain ⟨hxy, hr⟩ := List.append_inj h ((hlength x).trans (hlength y).symm)
  exact ⟨hinj x y hx hy hxy, hr⟩

/-- Values laid out one after another are read back, where their number is known. -/
theorem Readable.flatMap {α β : Type} {ok : α → Prop} {layout : α → List β} (h : Readable ok layout) :
    ∀ {xs ys : List α} {r q : List β}, xs.length = ys.length → (∀ x ∈ xs, ok x) → (∀ y ∈ ys, ok y) →
      xs.flatMap layout ++ r = ys.flatMap layout ++ q → xs = ys ∧ r = q := by
  intro xs
  induction xs with
  | nil =>
    intro ys r q hlength _ _ hbits
    obtain rfl := List.length_eq_zero_iff.mp hlength.symm
    exact ⟨rfl, hbits⟩
  | cons x xs ih =>
    intro ys r q hlength hx hy hbits
    cases ys with
    | nil => contradiction
    | cons y ys =>
      rw [List.forall_mem_cons] at hx hy
      rw [List.flatMap_cons, List.flatMap_cons, List.append_assoc, List.append_assoc] at hbits
      obtain ⟨rfl, hrest⟩ := h hx.1 hy.1 hbits
      obtain ⟨rfl, hr⟩ := ih (Nat.succ.inj hlength) hx.2 hy.2 hrest
      exact ⟨rfl, hr⟩

/-! ## Numbers and bytes as bits -/

@[simp] theorem numberBits_length (w n : Nat) : (numberBits w n).length = w := by simp [numberBits]

/-- The bits of a number tell it apart up to their width. -/
theorem numberBits_inj {w n m : Nat} : numberBits w n = numberBits w m ↔ n % 2 ^ w = m % 2 ^ w := by
  simp only [numberBits, List.map_inj_left, List.mem_reverse, List.mem_range]
  refine ⟨fun h => Nat.eq_of_testBit_eq fun i => ?_, fun h i hi => ?_⟩
  · rw [Nat.testBit_mod_two_pow, Nat.testBit_mod_two_pow]
    by_cases hi : i < w
    · rw [h i hi]
    · simp [hi]
  · have hbit := congrArg (Nat.testBit · i) h
    simpa [Nat.testBit_mod_two_pow, hi] using hbit

/-- A number is read back from its bits. -/
theorem numberBits_readable (w : Nat) : Readable (· < 2 ^ w) (numberBits w) :=
  Readable.of_length (numberBits_length w) fun n m hn hm h => by
    rwa [numberBits_inj, Nat.mod_eq_of_lt hn, Nat.mod_eq_of_lt hm] at h

/-- A field is read back from its bits. -/
theorem fieldBits_readable (w : Nat) : Readable (fun _ => True) fun x : BitVec w => numberBits w x.toNat :=
  fun _ _ h => (numberBits_readable w (BitVec.isLt _) (BitVec.isLt _) h).imp_left BitVec.eq_of_toNat_eq

/-- A byte is read back from its bits. -/
theorem byteBits_readable : Readable (fun _ => True) byteBits := fieldBits_readable 8

/-! ## The stay controller's and the lock unit's items (R129, R130, section 6.2) -/

/-- The tariff's numbers lie in their fields (R130). -/
def Tariff.fitsFields (t : Tariff) : Prop :=
  t.taxRate < 65536 ∧ t.siteClamp < 256 ∧ t.houseCeiling < 256 ∧ t.discreetClass < 256 ∧ t.liftMinutes < 65536

theorem Tariff.bits_readable : Readable Tariff.fitsFields Tariff.bits := by
  rintro x y r q ⟨hx1, hx2, hx3, hx4, hx5⟩ ⟨hy1, hy2, hy3, hy4, hy5⟩ h
  simp only [Tariff.bits, List.append_assoc] at h
  obtain ⟨htax, h⟩ := numberBits_readable 16 hx1 hy1 h
  obtain ⟨hclamp, h⟩ := numberBits_readable 8 hx2 hy2 h
  obtain ⟨hhouse, h⟩ := numberBits_readable 8 hx3 hy3 h
  obtain ⟨hdiscreet, h⟩ := numberBits_readable 8 hx4 hy4 h
  obtain ⟨hlift, h⟩ := numberBits_readable 16 hx5 hy5 h
  exact ⟨by cases x; cases y; congr, h⟩

theorem stayCode_inj {x y : StayState} (h : stayCode x = stayCode y) : x = y := by
  rw [stayCode_eq_idxOf, stayCode_eq_idxOf] at h
  exact (List.idxOf_inj (by cases x <;> simp)).mp h

/-- The stay record's numbers lie in their fields (R129). -/
def Stay.fitsFields (y : Stay) : Prop := y.seconds < 2 ^ 32 ∧ y.ceiling < 256 ∧ y.credit < 2 ^ 32 ∧ y.discount < 256

theorem Stay.bits_readable : Readable Stay.fitsFields Stay.bits := by
  rintro x y r q ⟨hx1, hx2, hx3, hx4⟩ ⟨hy1, hy2, hy3, hy4⟩ h
  simp only [Stay.bits, List.append_assoc] at h
  obtain ⟨hcode, h⟩ := numberBits_readable 8 (stayCode_lt _) (stayCode_lt _) h
  have hstate := stayCode_inj hcode
  obtain ⟨hnumber, h⟩ := fieldBits_readable 32 trivial trivial h
  obtain ⟨hseconds, h⟩ := numberBits_readable 32 hx1 hy1 h
  obtain ⟨hceiling, h⟩ := numberBits_readable 8 hx2 hy2 h
  obtain ⟨hcredit, h⟩ := numberBits_readable 32 hx3 hy3 h
  obtain ⟨hdiscount, h⟩ := numberBits_readable 8 hx4 hy4 h
  exact ⟨by cases x; cases y; congr, h⟩

/-- A PIN and its absence are told apart by the length (R85). -/
theorem pinBits_readable : Readable (fun p => pinInWidth p = true) pinBits := by
  intro x y r q hx hy h
  have hbounds : ∀ ds, pinInWidth (some ds) = true → 1 ≤ ds.length ∧ ds.length < 2 ^ 8 := fun ds hds => by
    simp only [pinInWidth, Bool.and_eq_true, decide_eq_true_eq] at hds
    omega
  cases x with
  | none =>
    cases y with
    | none => exact ⟨rfl, List.append_cancel_left h⟩
    | some es =>
      obtain ⟨hes, hfits⟩ := hbounds es hy
      rw [pinBits, pinBits, List.append_assoc] at h
      obtain ⟨hlength, -⟩ := numberBits_readable 8 (by decide) hfits h
      omega
  | some ds =>
    obtain ⟨hds, hfits⟩ := hbounds ds hx
    cases y with
    | none =>
      rw [pinBits, pinBits, List.append_assoc] at h
      obtain ⟨hlength, -⟩ := numberBits_readable 8 hfits (by decide) h
      omega
    | some es =>
      rw [pinBits, pinBits, List.append_assoc, List.append_assoc] at h
      obtain ⟨hlength, h⟩ := numberBits_readable 8 hfits (hbounds es hy).2 h
      obtain ⟨hdigits, h⟩ := byteBits_readable.flatMap hlength (fun _ _ => trivial) (fun _ _ => trivial) h
      exact ⟨congrArg some hdigits, h⟩

/-- The lock unit's numbers lie in their fields, and a PIN has places for its digits (section 6.2). -/
def Lock.fitsFields (l : Lock) : Prop := pinInWidth l.pin = true ∧ l.tries < 256 ∧ l.lockout < 65536 ∧ l.lift < 65536

theorem Lock.bits_readable : Readable Lock.fitsFields Lock.bits := by
  rintro x y r q ⟨hx1, hx2, hx3, hx4⟩ ⟨hy1, hy2, hy3, hy4⟩ h
  simp only [Lock.bits, List.append_assoc] at h
  obtain ⟨hpin, h⟩ := pinBits_readable hx1 hy1 h
  obtain ⟨htries, h⟩ := numberBits_readable 8 hx2 hy2 h
  obtain ⟨hlockout, h⟩ := numberBits_readable 16 hx3 hy3 h
  obtain ⟨hlift, h⟩ := numberBits_readable 16 hx4 hy4 h
  exact ⟨by cases x; cases y; congr, h⟩

/-! ## Title entries (R64, R81) -/

/-- A title state is told by its code, with the purchase second and sequence behind it. -/
theorem TitleState.purchaseBits_readable {x y : TitleState} {r q : List Bool} (hcode : titleStateCode x = titleStateCode y)
    (hx : x.inWidth = true) (hy : y.inWidth = true) (h : x.purchaseBits ++ r = y.purchaseBits ++ q) : x = y ∧ r = q := by
  have hpair : ∀ {a b c d : Nat}, (a < 2 ^ 32 ∧ b < 2 ^ 32) → (c < 2 ^ 32 ∧ d < 2 ^ 32) →
      numberBits 32 a ++ numberBits 32 b ++ r = numberBits 32 c ++ numberBits 32 d ++ q → a = c ∧ b = d ∧ r = q :=
    fun hab hcd h => by
      rw [List.append_assoc, List.append_assoc] at h
      obtain ⟨hac, h⟩ := numberBits_readable 32 hab.1 hcd.1 h
      exact ⟨hac, numberBits_readable 32 hab.2 hcd.2 h⟩
  simp only [TitleState.inWidth] at hx hy
  cases x with
  | offered => contradiction
  | preview =>
    cases y with
    | preview => exact ⟨rfl, List.append_cancel_left h⟩
    | _ => simp [titleStateCode] at hcode
  | exhausted =>
    cases y with
    | exhausted => exact ⟨rfl, List.append_cancel_left h⟩
    | _ => simp [titleStateCode] at hcode
  | purchased second sequence =>
    cases y with
    | purchased second' sequence' =>
      obtain ⟨rfl, rfl, hr⟩ := hpair (by simpa using hx) (by simpa using hy) h
      exact ⟨rfl, hr⟩
    | _ => simp [titleStateCode] at hcode
  | lapsed second sequence =>
    cases y with
    | lapsed second' sequence' =>
      obtain ⟨rfl, rfl, hr⟩ := hpair (by simpa using hx) (by simpa using hy) h
      exact ⟨rfl, hr⟩
    | _ => simp [titleStateCode] at hcode

theorem TitleEntry.bits_readable : Readable (fun e => e.inWidth = true) TitleEntry.bits := by
  intro x y r q hx hy h
  simp only [TitleEntry.inWidth, Bool.and_eq_true, Bool.not_eq_true', decide_eq_true_eq] at hx hy
  obtain ⟨⟨⟨⟨⟨⟨⟨hx1, hx2⟩, hx3⟩, hx4⟩, hx5⟩, hx6⟩, hx7⟩, hx8⟩ := hx
  obtain ⟨⟨⟨⟨⟨⟨⟨hy1, hy2⟩, hy3⟩, hy4⟩, hy5⟩, hy6⟩, hy7⟩, hy8⟩ := hy
  simp only [TitleEntry.bits, List.append_assoc] at h
  obtain ⟨hnumber, h⟩ := fieldBits_readable 16 trivial trivial h
  obtain ⟨hrating, h⟩ := numberBits_readable 8 hx4 hy4 h
  obtain ⟨hprice, h⟩ := numberBits_readable 16 hx5 hy5 h
  obtain ⟨hlimit, h⟩ := numberBits_readable 16 hx6 hy6 h
  obtain ⟨hhours, h⟩ := numberBits_readable 8 hx7 hy7 h
  obtain ⟨hcode, h⟩ := numberBits_readable 8 (titleStateCode_lt _) (titleStateCode_lt _) h
  obtain ⟨hused, h⟩ := numberBits_readable 16 hx8 hy8 h
  obtain ⟨hstate, h⟩ := TitleState.purchaseBits_readable hcode hx1 hy1 h
  have hmain : x.seenMain = y.seenMain := hx2.trans hy2.symm
  have hmosaic : x.seenMosaic = y.seenMosaic := hx3.trans hy3.symm
  exact ⟨by cases x; cases y; congr, h⟩

/-! ## Charge records (section 12.6) -/

theorem wordBytes_readable : Readable (fun _ => True) wordBytes :=
  Readable.of_length (ok := fun _ => True) wordBytes_length fun x y _ _ h => by
    rw [← be32_byteOf x, ← be32_byteOf y]
    simp only [wordBytes, List.cons.injEq] at h
    simp only [h]

theorem halfBytes_readable : Readable (fun _ => True) halfBytes :=
  Readable.of_length (ok := fun _ => True) halfBytes_length fun x y _ _ h => by
    rw [← be16_halfBytes x, ← be16_halfBytes y]
    simp only [halfBytes, List.cons.injEq] at h
    simp only [h]

theorem nat32_readable : Readable (· < 2 ^ 32) nat32 := fun {x y _ _} hx hy h =>
  (wordBytes_readable trivial trivial h).imp_left fun hword => by
    have hnat := congrArg BitVec.toNat hword
    rwa [BitVec.toNat_ofNat, BitVec.toNat_ofNat, Nat.mod_eq_of_lt hx, Nat.mod_eq_of_lt hy] at hnat

theorem flagByte_inj {x y : Bool} (h : BitVec.ofNat 8 (flagBit x) = BitVec.ofNat 8 (flagBit y)) : x = y := by
  revert x y
  decide

/-- A record is told by its 32 bytes: its kind by byte 8, its fields one after another (section 12.6). -/
theorem chargeBytes_readable : Readable (fun c => c.inWidth = true) chargeBytes := by
  rintro ⟨sequence, stay, second, spent, body⟩ ⟨sequence', stay', second', spent', body'⟩ r q hx hy h
  simp only [ChargeRecord.inWidth, Bool.and_eq_true, decide_eq_true_eq] at hx hy
  obtain ⟨⟨⟨hx1, hx2⟩, hx3⟩, hx4⟩ := hx
  obtain ⟨⟨⟨hy1, hy2⟩, hy3⟩, hy4⟩ := hy
  cases body with
  | purchase discreet title service net tax =>
    cases body' with
    | purchase discreet' title' service' net' tax' =>
      simp only [Bool.and_eq_true, decide_eq_true_eq] at hx4 hy4
      simp only [chargeBytes, List.append_assoc] at h
      obtain ⟨hsequence, h⟩ := nat32_readable hx1 hy1 h
      obtain ⟨hstay, h⟩ := wordBytes_readable trivial trivial h
      simp only [List.cons_append, List.nil_append, List.cons.injEq, true_and] at h
      obtain ⟨hflag, h⟩ := h
      have hdiscreet := flagByte_inj hflag
      obtain ⟨htitle, h⟩ := halfBytes_readable trivial trivial h
      obtain ⟨hservice, h⟩ := List.cons.inj (List.append_cancel_left h)
      obtain ⟨hsecond, h⟩ := nat32_readable hx2 hy2 h
      obtain ⟨hspent, h⟩ := nat32_readable hx3 hy3 h
      obtain ⟨hnet, h⟩ := nat32_readable hx4.1 hy4.1 h
      obtain ⟨htax, h⟩ := nat32_readable hx4.2 hy4.2 h
      exact ⟨by congr, h⟩
    | close count' net' tax' =>
      simp only [chargeBytes, List.append_assoc] at h
      obtain ⟨-, h⟩ := nat32_readable hx1 hy1 h
      obtain ⟨-, h⟩ := wordBytes_readable trivial trivial h
      exact absurd (List.cons.inj h).1 (by decide)
  | close count net tax =>
    cases body' with
    | purchase discreet' title' service' net' tax' =>
      simp only [chargeBytes, List.append_assoc] at h
      obtain ⟨-, h⟩ := nat32_readable hx1 hy1 h
      obtain ⟨-, h⟩ := wordBytes_readable trivial trivial h
      exact absurd (List.cons.inj h).1 (by decide)
    | close count' net' tax' =>
      simp only [Bool.and_eq_true, decide_eq_true_eq] at hx4 hy4
      simp only [chargeBytes, List.append_assoc] at h
      obtain ⟨hsequence, h⟩ := nat32_readable hx1 hy1 h
      obtain ⟨hstay, h⟩ := wordBytes_readable trivial trivial h
      obtain ⟨hcount, h⟩ := nat32_readable hx4.1.1 hy4.1.1 (List.append_cancel_left (List.append_cancel_left h))
      obtain ⟨hsecond, h⟩ := nat32_readable hx2 hy2 h
      obtain ⟨hspent, h⟩ := nat32_readable hx3 hy3 h
      obtain ⟨hnet, h⟩ := nat32_readable hx4.1.2 hy4.1.2 h
      obtain ⟨htax, h⟩ := nat32_readable hx4.2 hy4.2 h
      exact ⟨by congr, h⟩

theorem ChargeRecord.bits_readable : Readable (fun c => c.inWidth = true) ChargeRecord.bits := by
  intro x y r q hx hy h
  obtain ⟨hbytes, h⟩ := byteBits_readable.flatMap ((chargeBytes_length x).trans (chargeBytes_length y).symm)
    (fun _ _ => trivial) (fun _ _ => trivial) h
  exact ⟨(chargeBytes_readable hx hy (congrArg (· ++ []) hbytes)).1, h⟩

end Sys2Proof.Machine
end

section
namespace Sys2Proof.Machine

/-! ## The contents of the retained store (R157) -/

/-- What it is for contents to have room in the retained store, item by item (R119, R129, R130, R157). -/
structure Retained.FitsFields (r : Retained) : Prop where
  tariff : r.tariff.fitsFields
  stay : r.stay.fitsFields
  lock : r.lock.fitsFields
  fewTitles : r.titles.length < 2 ^ 8
  titles : ∀ e ∈ r.titles, e.inWidth = true
  fewRecords : r.records.length < 2 ^ 8
  records : ∀ c ∈ r.records, c.inWidth = true
  lastIssued : r.lastIssued < 2 ^ 32
  acknowledged : r.acknowledged < 2 ^ 32
  netTotal : r.netTotal < 2 ^ 32
  taxTotal : r.taxTotal < 2 ^ 32
  count : r.count < 2 ^ 32

theorem Retained.fitsFields_of_inWidth {r : Retained} (h : r.inWidth = true) : r.FitsFields := by
  simp only [Retained.inWidth, Bool.and_eq_true, decide_eq_true_eq, List.all_eq_true, and_assoc] at h
  obtain ⟨htax, hclamp, hhouse, hdiscreet, hminutes, hseconds, hceiling, hcredit, hdiscount, hpin, htries, hlockout, hlift,
    hmany, htitles, hlong, hrecords, hlast, hacked, hnet, htotal, hcount⟩ := h
  exact ⟨⟨htax, hclamp, hhouse, hdiscreet, hminutes⟩, ⟨hseconds, hceiling, hcredit, hdiscount⟩,
    ⟨hpin, htries, hlockout, hlift⟩, Nat.lt_of_le_of_lt hmany (by decide), htitles, Nat.lt_of_le_of_lt hlong (by decide),
    hrecords, hlast, hacked, hnet, htotal, hcount⟩

/-- Contents that the store has room for are told by their bits (R157). -/
theorem Retained.bits_inj {x y : Retained} (hx : x.inWidth = true) (hy : y.inWidth = true) (h : x.bits = y.bits) : x = y := by
  have fx := Retained.fitsFields_of_inWidth hx
  have fy := Retained.fitsFields_of_inWidth hy
  simp only [Retained.bits, List.append_assoc] at h
  obtain ⟨hkey, h⟩ := fieldBits_readable 64 trivial trivial h
  obtain ⟨htariff, h⟩ := Tariff.bits_readable fx.tariff fy.tariff h
  obtain ⟨hstay, h⟩ := Stay.bits_readable fx.stay fy.stay h
  obtain ⟨hlock, h⟩ := Lock.bits_readable fx.lock fy.lock h
  obtain ⟨hmany, h⟩ := numberBits_readable 8 fx.fewTitles fy.fewTitles h
  obtain ⟨htitles, h⟩ := TitleEntry.bits_readable.flatMap hmany fx.titles fy.titles h
  obtain ⟨hlong, h⟩ := numberBits_readable 8 fx.fewRecords fy.fewRecords h
  obtain ⟨hrecords, h⟩ := ChargeRecord.bits_readable.flatMap hlong fx.records fy.records h
  obtain ⟨hlast, h⟩ := numberBits_readable 32 fx.lastIssued fy.lastIssued h
  obtain ⟨hacked, h⟩ := numberBits_readable 32 fx.acknowledged fy.acknowledged h
  obtain ⟨hnet, h⟩ := numberBits_readable 32 fx.netTotal fy.netTotal h
  obtain ⟨htax, h⟩ := numberBits_readable 32 fx.taxTotal fy.taxTotal h
  obtain ⟨hcount, -⟩ := numberBits_readable 32 fx.count fy.count (congrArg (· ++ []) h)
  cases x
  cases y
  congr

/-! ## The cyclic check (R157) -/

theorem checkGenerator_bit0 : checkGenerator.getLsbD 0 = true := by simp [checkGenerator]

/-- Bit 0 of the register after a step is the combined bit, as the generator has an x^0 term. -/
theorem checkStep_bit0 (r : Word) (b : Bool) : (checkStep checkGenerator r b).getLsbD 0 = (r.msb ^^ b) := by
  unfold checkStep
  split
  · rename_i h
    simp [checkGenerator_bit0, h]
  · rename_i h
    rw [Bool.not_eq_true] at h
    simp [h]

/-- The other bits after a step are those before, one place up, combined with the generator's where the combined bit was 1. -/
theorem checkStep_bit_succ (r : Word) (b : Bool) {i : Nat} (hi : i + 1 < 32) :
    (checkStep checkGenerator r b).getLsbD (i + 1) = (r.getLsbD i ^^ ((r.msb ^^ b) && checkGenerator.getLsbD (i + 1))) := by
  have hlow : i < 32 := by omega
  unfold checkStep
  split
  · rename_i h
    simp [hi, hlow, h]
  · rename_i h
    rw [Bool.not_eq_true] at h
    simp [hi, hlow, h]

/-- Registers equal after a step combined one and the same bit, and agreed but in their top bit. -/
theorem checkStep_agree {r q : Word} {b c : Bool} {n : Nat} (hn : n < 32)
    (h : ∀ i, i < n + 1 → (checkStep checkGenerator r b).getLsbD i = (checkStep checkGenerator q c).getLsbD i) :
    (r.msb ^^ b) = (q.msb ^^ c) ∧ ∀ i, i < n → r.getLsbD i = q.getLsbD i := by
  have hcombined : (r.msb ^^ b) = (q.msb ^^ c) := by
    rw [← checkStep_bit0, ← checkStep_bit0]
    exact h 0 (Nat.succ_pos n)
  refine ⟨hcombined, fun i hi => ?_⟩
  have hnext := h (i + 1) (Nat.succ_lt_succ hi)
  rwa [checkStep_bit_succ r b (by omega), checkStep_bit_succ q c (by omega), hcombined, Bool.xor_left_inj] at hnext

theorem eq_of_msb_of_low {r q : Word} (hmsb : r.msb = q.msb) (h : ∀ i, i < 31 → r.getLsbD i = q.getLsbD i) : r = q := by
  refine BitVec.eq_of_getLsbD_eq fun i hi => ?_
  by_cases hlow : i < 31
  · exact h i hlow
  · obtain rfl : i = 31 := by omega
    rwa [BitVec.msb_eq_getLsbD_last, BitVec.msb_eq_getLsbD_last] at hmsb

/-- A step on one bit keeps registers apart. -/
theorem checkStep_inj {r q : Word} {b : Bool} (h : checkStep checkGenerator r b = checkStep checkGenerator q b) : r = q := by
  obtain ⟨hcombined, hlow⟩ := checkStep_agree (n := 31) (by decide) fun i _ => congrArg (BitVec.getLsbD · i) h
  exact eq_of_msb_of_low (Bool.xor_left_inj.mp hcombined) hlow

/-- The bits behind a change keep registers apart. -/
theorem foldl_checkStep_inj (bits : List Bool) {r q : Word}
    (h : bits.foldl (checkStep checkGenerator) r = bits.foldl (checkStep checkGenerator) q) : r = q := by
  induction bits generalizing r q with
  | nil => exact h
  | cons b bits ih => exact checkStep_inj (ih h)

/-- Two runs of `n` bits, at most 32, that lead to one register began in registers that agree in the bits that `n` steps do not
shift out, and are one run where they began in one register. -/
theorem foldl_checkStep_run {run changed : List Bool} (hlength : run.length = changed.length) (hshort : run.length ≤ 32)
    {r q : Word} (h : run.foldl (checkStep checkGenerator) r = changed.foldl (checkStep checkGenerator) q) :
    (∀ i, i < 32 - run.length → r.getLsbD i = q.getLsbD i) ∧ (r = q → run = changed) := by
  induction run generalizing changed r q with
  | nil =>
    obtain rfl := List.length_eq_zero_iff.mp hlength.symm
    exact ⟨fun i _ => congrArg (BitVec.getLsbD · i) h, fun _ => rfl⟩
  | cons b run ih =>
    cases changed with
    | nil => contradiction
    | cons c changed =>
      simp only [List.length_cons] at hlength hshort ⊢
      obtain ⟨hagree, hsame⟩ := ih (Nat.succ.inj hlength) (by omega) h
      obtain ⟨hcombined, hlow⟩ := checkStep_agree (n := 32 - (run.length + 1)) (by omega) fun i hi => hagree i (by omega)
      refine ⟨hlow, fun hrq => ?_⟩
      subst hrq
      obtain rfl := Bool.xor_right_inj.mp hcombined
      rw [hsame rfl]

/-- The check word changes with any run of at most 32 consecutive bits (R157). -/
theorem cyclicCheck_ne (before after : List Bool) {run changed : List Bool} (hlength : run.length = changed.length)
    (hshort : run.length ≤ 32) (hne : run ≠ changed) :
    cyclicCheck (before ++ run ++ after) ≠ cyclicCheck (before ++ changed ++ after) := by
  intro h
  simp only [cyclicCheck, List.foldl_append] at h
  exact hne ((foldl_checkStep_run hlength hshort (foldl_checkStep_inj after h)).2 rfl)

end Sys2Proof.Machine

namespace Sys2Proof.Proofs
open Sys2Proof Sys2Proof.Machine

/-- Settles O55: item by item for the bits, and for the check word by the registers that one bit keeps apart. -/
theorem theCheckWordDetectsShortChanges : Obligations.TheCheckWordDetectsShortChanges := by
  refine ⟨fun s => ⟨rfl, ?_⟩, fun _ _ => Retained.bits_inj,
    fun before _ _ after => cyclicCheck_ne before after⟩
  rw [← keptTitles_eq]
  rfl

end Sys2Proof.Proofs
end

section
namespace Sys2Proof.Machine

/-! ## Samples of the main supply (R153, R155) -/

theorem judgeSample_low {mv : Nat} (h : mv < 2850) : judgeSample mv = .low := if_pos h

theorem judgeSample_between {mv : Nat} (hlow : 2850 ≤ mv) (hgood : mv ≤ 3050) : judgeSample mv = .between := by
  rw [judgeSample, if_neg (Nat.not_lt.mpr hlow), if_neg (Nat.not_lt.mpr hgood)]

theorem judgeSample_good {mv : Nat} (h : 3050 < mv) : judgeSample mv = .good := by
  rw [judgeSample, if_neg (by omega), if_pos h]

section
variable {s : State}

theorem exec_supplySample (mv : Nat) (htick : s.tick = TickWork.none) :
    exec (.supplySample mv) s = .next (s.sampleStep (judgeSample mv)) :=
  perform_of_none (fun s => some (s.sampleStep (judgeSample mv))) s htick

theorem State.sampleStep_run {low : Nat} (h : s.supply = .run low) (x : Sample) : s.sampleStep x = s.sampleRun low x := by
  rw [State.sampleStep, h]

theorem State.sampleStep_retain (h : s.supply = .retain) (x : Sample) :
    s.sampleStep x = if x = .good then s.recoverStep else s := by
  rw [State.sampleStep, h]

theorem State.sampleStep_recover {good : Nat} (h : s.supply = .recover good) (x : Sample) :
    s.sampleStep x = s.sampleRecover good x := by
  rw [State.sampleStep, h]

/-- A sample in RUN that is not low begins the low count again (R153). -/
theorem State.sampleRun_not_low (low : Nat) {mv : Nat} (h : 2850 ≤ mv) :
    s.sampleRun low (judgeSample mv) = { s with supply := .run 0 } := by
  by_cases hgood : mv ≤ 3050
  · rw [judgeSample_between h hgood]
    rfl
  · rw [judgeSample_good (Nat.lt_of_not_le hgood)]
    rfl

/-- A sample in RETAIN that is not good leaves the part there (R155). -/
theorem judgeSample_ne_good {mv : Nat} (h : mv ≤ 3050) : judgeSample mv ≠ .good := by
  by_cases hlow : mv < 2850
  · rw [judgeSample_low hlow]
    decide
  · rw [judgeSample_between (Nat.le_of_not_lt hlow) h]
    decide

theorem exec_enterRun_of_due (changed : List (BitVec 26 × Byte)) (htick : s.tick = TickWork.none)
    (h : s.supply = .recover 4095) : exec (.enterRun changed) s = .next (s.enterRunStep changed) := by
  have harm : exec (.enterRun changed) s = execEnterRun changed s := rfl
  rw [harm, execEnterRun, perform_of_none _ s htick, if_pos h, Option.getD_some]

theorem exec_supplyRecover_of_retain (htick : s.tick = TickWork.none) (h : s.supply = .retain) :
    exec .supplyRecover s = .next { s with supply := .recover 1 } := by
  have harm : exec .supplyRecover s = execSupplyRecover s := rfl
  rw [harm, execSupplyRecover, perform_of_none _ s htick, if_pos h, Option.getD_some]
  rfl

theorem exec_supplyRelapse_of_recover {good : Nat} (htick : s.tick = TickWork.none) (h : s.supply = .recover good) :
    exec .supplyRelapse s = .next { s with supply := .retain } := by
  have harm : exec .supplyRelapse s = execSupplyRelapse s := rfl
  have hrecover : s.inRecover = true := by rw [State.inRecover, h]
  rw [harm, execSupplyRelapse, perform_of_none _ s htick, if_pos hrecover, Option.getD_some]
  rfl

end

/-! ## The entry to RUN, and what a decay leaves (R155, R156, R157) -/

/-- The comparison at the entry to RUN (R156). -/
theorem State.checkHolds_iff (s : State) : s.checkHolds = true ↔ s.checkWord = some (cyclicCheck s.retained.bits) :=
  decide_eq_true_iff

/-- Entries that the retained store has room for are those that a restart keeps (R64, R81). -/
theorem keptTitles_of_inWidth {es : List TitleEntry} (h : ∀ e ∈ es, e.inWidth = true) : keptTitles es = es := by
  have hentry : ∀ e ∈ es, e.state ≠ .offered ∧ e.unseen = e := fun e he => by
    have hfits := h e he
    simp only [TitleEntry.inWidth, Bool.and_eq_true, Bool.not_eq_true', and_assoc] at hfits
    obtain ⟨hstate, hmain, hmosaic, -⟩ := hfits
    refine ⟨fun hoffered => ?_, ?_⟩
    · rw [hoffered] at hstate
      contradiction
    · cases e
      cases hmain
      cases hmosaic
      rfl
  rw [keptTitles, List.filter_eq_self.mpr fun e he => bne_iff_ne.mpr (hentry e he).1]
  exact (List.map_congr_left fun e he => (hentry e he).2).trans (List.map_id _)

/-- A decay to contents that the store has room for leaves just those contents (R157). -/
theorem State.decay_of_inWidth (s : State) {left : Retained} (h : left.inWidth = true) :
    s.decay left = s.holding left ∧ (s.holding left).titles = left.titles ∧ (s.holding left).retained = left := by
  have htitles : keptTitles left.titles = left.titles := keptTitles_of_inWidth (Retained.fitsFields_of_inWidth h).titles
  have hrecords : (left.records.map ChargeItem.unwritten).map ChargeItem.record = left.records :=
    List.map_map.trans (List.map_id _)
  refine ⟨if_pos h, htitles, ?_⟩
  have hretained : (s.holding left).retained = { left with
      titles := keptTitles (keptTitles left.titles)
      records := (left.records.map ChargeItem.unwritten).map ChargeItem.record } := rfl
  rw [hretained, hrecords, htitles, htitles]

/-- A decay that changes a run of at most 32 bits is found by the comparison, where it held before (R157). -/
theorem State.decay_caught {s : State} {left : Retained} (hleft : left.inWidth = true) (hholds : s.checkHolds = true)
    {before run changed after : List Bool} (hbits : s.retained.bits = before ++ run ++ after)
    (hchanged : left.bits = before ++ changed ++ after) (hlength : run.length = changed.length) (hshort : run.length ≤ 32)
    (hne : run ≠ changed) : (s.decay left).checkHolds = false := by
  obtain ⟨hdecay, -, hretained⟩ := s.decay_of_inWidth hleft
  have hword := (s.decay_keeps left).1
  rw [Bool.eq_false_iff, ne_eq, State.checkHolds_iff, hword, s.checkHolds_iff.mp hholds, hdecay, hretained, hbits, hchanged,
    Option.some.injEq]
  exact cyclicCheck_ne before after hlength hshort hne

end Sys2Proof.Machine

namespace Sys2Proof.Proofs
open Sys2Proof Sys2Proof.Machine

/-- Settles O51: the supply states one after another, and in each the level of the sample. -/
theorem suppliesAreSampled : Obligations.SuppliesAreSampled := by
  intro s mv htick
  rw [exec_supplySample mv htick]
  refine ⟨fun low hrun => ?_, fun hretain => ?_, fun good hrecover => ?_⟩
  · rw [State.sampleStep_run hrun]
    refine ⟨fun hlow hcount => ?_, fun hlow hcount => ?_, fun hmv => by rw [State.sampleRun_not_low low hmv]⟩
    · rw [judgeSample_low hlow, State.sampleRun, if_neg (by omega)]
    · subst hcount
      rw [judgeSample_low hlow, exec_enterRetain_of_due [] htick hrun]
      rfl
  · rw [State.sampleStep_retain hretain]
    refine ⟨fun hgood => ?_, fun hmv => ?_, exec_supplyRecover_of_retain htick hretain⟩
    · rw [if_pos (judgeSample_good hgood)]
      rfl
    · rw [if_neg (judgeSample_ne_good hmv)]
  · rw [State.sampleStep_recover hrecover]
    refine ⟨fun hlow => ?_, fun hlow hmv => ?_, fun hgood hcount => ?_, fun hgood hcount => ?_,
      exec_supplyRelapse_of_recover htick hrecover⟩
    · rw [judgeSample_low hlow]
      rfl
    · rw [judgeSample_between hlow hmv]
      rfl
    · rw [judgeSample_good hgood, State.sampleRecover, if_neg (by omega)]
    · subst hcount
      rw [judgeSample_good hgood, exec_enterRun_of_due [] htick hrecover]
      rfl

/-- Settles O53: the restart by the comparison, POWER_ON, and a decay by the room that the store has for what it leaves. -/
theorem enteringRunComparesTheCheckWord : Obligations.EnteringRunComparesTheCheckWord := by
  refine ⟨fun s changed htick hdue => ?_, fun s htick => ⟨?_, fun hrun => ?_, fun hrun => exec_decay_outside htick hrun⟩,
    fun s left => ⟨fun hleft => ?_, fun hleft => ?_⟩⟩
  · rw [exec_enterRun_of_due changed htick hdue, State.enterRunStep]
    refine ⟨fun hword => ?_, fun hword => ?_, rfl, rfl, rfl, rfl, rfl, keptTitles_eq s.titles, rfl, rfl, fun h => ?_⟩
    · rw [if_pos (s.checkHolds_iff.mpr hword)]
    · rw [if_neg (fun h => hword (s.checkHolds_iff.mp h))]
    · rw [h]
      rfl
  · rw [exec_powerOn, s.settle_of_none htick]
    exact ⟨_, rfl, rfl, rfl, rfl, rfl, rfl, rfl, rfl, rfl, rfl, rfl, rfl⟩
  · rw [exec_decay_of_run hrun, s.settle_of_none htick]
  · exact if_neg (Bool.eq_false_iff.mp hleft)
  · obtain ⟨hdecay, htitles, hretained⟩ := s.decay_of_inWidth hleft
    refine ⟨?_, ?_, by rw [hdecay, hretained], fun before run changed after hholds hbits hchanged hlength hshort hne =>
      State.decay_caught hleft hholds hbits hchanged hlength hshort hne⟩
    · rw [hdecay, ← htitles]
      rfl
    · rw [hdecay]
      rfl

end Sys2Proof.Proofs
end

section
namespace Sys2Proof.Machine

/-! ## A step on a queue that holds a command (log entry 4) -/

theorem step_of_pending_cons {c : Instr} {rest : List Instr} {s : State} (h : s.pending = c :: rest) :
    step s = exec c { s with pending := rest } := by
  rw [step, h]

end Sys2Proof.Machine

namespace Sys2Proof.Proofs
open Sys2Proof Sys2Proof.Machine

/-- Settles O1: the step on the queue whose front is `c`, with the rest put behind it in place of the whole queue. -/
theorem stepTakesTheFrontCommand : Obligations.StepTakesTheFrontCommand := by
  intro c rest s
  have hfront : ({ s with pending := c :: rest } : State).pending = c :: rest := rfl
  exact step_of_pending_cons hfront

end Sys2Proof.Proofs
end
